-- ==== Sys2Proof/Word.lean ====
section
/-! DEFINITION. The command word (30_encoding R90), the 4-bit fields of a command word (R91) and
the 8-bit entry of a recoding buffer (10_state R38). A digit of `W` bits has a width that the build
chooses (00_scope R8), so a digit vector is held as the integer `val(d)` of 00_scope R18. -/

namespace Sys2Proof

/-- A 32-bit command word: the value of one host write to `CMD` (30_encoding R90). -/
abbrev Word := BitVec 32

/-- An entry of a recoding buffer, 8 bits (10_state R38, 42_rec R141). -/
abbrev Byte := BitVec 8

/-- A register number, 0 to 15 (30_encoding R92: every field value names a register). -/
abbrev Reg := Fin 16

/-- The 4-bit operand `lo` of format R: a width, a space number or a count (30_encoding R91, R94). -/
abbrev Nib := Fin 16

end Sys2Proof
end

