-- ==== Sys2Proof/Syntax.lean ====
section
/-! DEFINITION. The instructions: one constructor per row of spec/opcode_table.json (30_encoding R95), in
the table's order, its operands in the order the assembler writes them (R102), the `sp` of a
digit-vector command first. Register operands index the file that the row names (R92). -/

namespace Sys2Proof

/-- The 85 commands of 30_encoding R95. -/
inductive Instr where
  /-- `NOP` (47_sys R321). -/
  | nop
  /-- `CTX.INIT` (47_sys R322). -/
  | ctxInit
  /-- `CLRERR` (47_sys R323). -/
  | clrerr
  /-- `DV.ZERO` (40_dv R111). -/
  | dvZero (sp : Nib) (rd : Reg)
  /-- `DV.COPY` (40_dv R112). -/
  | dvCopy (sp : Nib) (rd : Reg) (ra : Reg)
  /-- `DV.CMP` (40_dv R113). -/
  | dvCmp (sp : Nib) (ra : Reg) (rb : Reg)
  /-- `BN.ADD` (41_bn R123). -/
  | bnAdd (rd : Reg) (ra : Reg) (rb : Reg)
  /-- `BN.SUB` (41_bn R124). -/
  | bnSub (rd : Reg) (ra : Reg) (rb : Reg)
  /-- `BN.MUL` (41_bn R125). -/
  | bnMul (rd : Reg) (ra : Reg) (rb : Reg)
  /-- `BN.SQR` (41_bn R126). -/
  | bnSqr (rd : Reg) (ra : Reg)
  /-- `BN.DIV` (41_bn R127). -/
  | bnDiv (rd : Reg) (rc : Reg) (ra : Reg) (rb : Reg)
  /-- `BN.MOD` (41_bn R128). -/
  | bnMod (rd : Reg) (ra : Reg) (rb : Reg)
  /-- `BN.GCD` (41_bn R129). -/
  | bnGcd (rd : Reg) (ra : Reg) (rb : Reg)
  /-- `BN.LSH` (41_bn R130). -/
  | bnLsh (rd : Reg) (ra : Reg) (imm16 : BitVec 16)
  /-- `BN.RSH` (41_bn R131). -/
  | bnRsh (rd : Reg) (ra : Reg) (imm16 : BitVec 16)
  /-- `REC.NAF` (42_rec R143). -/
  | recNaf (rd : Reg) (ra : Reg) (w : Nib)
  /-- `REC.JSF` (42_rec R145). -/
  | recJsf (rd : Reg) (ra : Reg) (rb : Reg)
  /-- `REC.TNAF` (42_rec R148). -/
  | recTnaf (rd : Reg) (ra : Reg) (w : Nib)
  /-- `REC.WIN` (42_rec R150). -/
  | recWin (rd : Reg) (ra : Reg) (w : Nib)
  /-- `REC.REG` (42_rec R152). -/
  | recReg (rd : Reg) (ra : Reg) (w : Nib)
  /-- `FP.ADD` (43_fp R165). -/
  | fpAdd (rd : Reg) (ra : Reg) (rb : Reg)
  /-- `FP.SUB` (43_fp R166). -/
  | fpSub (rd : Reg) (ra : Reg) (rb : Reg)
  /-- `FP.NEG` (43_fp R167). -/
  | fpNeg (rd : Reg) (ra : Reg)
  /-- `FP.DBL` (43_fp R168). -/
  | fpDbl (rd : Reg) (ra : Reg)
  /-- `FP.HLV` (43_fp R169). -/
  | fpHlv (rd : Reg) (ra : Reg)
  /-- `FP.MUL` (43_fp R170). -/
  | fpMul (rd : Reg) (ra : Reg) (rb : Reg)
  /-- `FP.SQR` (43_fp R171). -/
  | fpSqr (rd : Reg) (ra : Reg)
  /-- `FP.INV` (43_fp R172). -/
  | fpInv (rd : Reg) (ra : Reg)
  /-- `FP.EXP` (43_fp R173). -/
  | fpExp (rd : Reg) (ra : Reg) (rb : Reg)
  /-- `FP.EXP.MONTY` (43_fp R178). -/
  | fpExpMonty (rd : Reg) (ra : Reg) (rb : Reg)
  /-- `FP.SRT` (43_fp R174). -/
  | fpSrt (rd : Reg) (ra : Reg)
  /-- `FP.CMP` (43_fp R175). -/
  | fpCmp (ra : Reg) (rb : Reg)
  /-- `FP.CONV` (43_fp R176). -/
  | fpConv (rd : Reg) (ra : Reg)
  /-- `FP.BACK` (43_fp R177). -/
  | fpBack (rd : Reg) (ra : Reg)
  /-- `FP.MULN` (43_fp R179). -/
  | fpMuln (rd : Reg) (ra : Reg) (rb : Reg)
  /-- `FP.RDC` (43_fp R185). -/
  | fpRdc (rd : Reg) (ra : Reg)
  /-- `FP.RDCN` (43_fp R186). -/
  | fpRdcn (rd : Reg) (ra : Reg)
  /-- `FP.RDCS` (43_fp R187). -/
  | fpRdcs (rd : Reg) (ra : Reg)
  /-- `FB.ADD` (44_fb R202). -/
  | fbAdd (rd : Reg) (ra : Reg) (rb : Reg)
  /-- `FB.MUL` (44_fb R203). -/
  | fbMul (rd : Reg) (ra : Reg) (rb : Reg)
  /-- `FB.SQR` (44_fb R204). -/
  | fbSqr (rd : Reg) (ra : Reg)
  /-- `FB.MULN` (44_fb R205). -/
  | fbMuln (rd : Reg) (ra : Reg) (rb : Reg)
  /-- `FB.RDC` (44_fb R206). -/
  | fbRdc (rd : Reg) (ra : Reg)
  /-- `FB.SRT` (44_fb R207). -/
  | fbSrt (rd : Reg) (ra : Reg)
  /-- `FB.TRC` (44_fb R208). -/
  | fbTrc (ra : Reg)
  /-- `FB.SLV` (44_fb R209). -/
  | fbSlv (rd : Reg) (ra : Reg)
  /-- `FB.INV` (44_fb R211). -/
  | fbInv (rd : Reg) (ra : Reg)
  /-- `FB.INV.BASIC` (44_fb R212). -/
  | fbInvBasic (rd : Reg) (ra : Reg)
  /-- `FB.INV.BINAR` (44_fb R213). -/
  | fbInvBinar (rd : Reg) (ra : Reg)
  /-- `FB.INV.ALMOS` (44_fb R214). -/
  | fbInvAlmos (rd : Reg) (ra : Reg)
  /-- `FB.INV.EXGCD` (44_fb R215). -/
  | fbInvExgcd (rd : Reg) (ra : Reg)
  /-- `FB.INV.ITOHT` (44_fb R216). -/
  | fbInvItoht (rd : Reg) (ra : Reg)
  /-- `FB.INV.LOWER` (44_fb R217). -/
  | fbInvLower (rd : Reg) (ra : Reg)
  /-- `FB.INV.SIM` (44_fb R218). -/
  | fbInvSim (rd : Reg) (ra : Reg) (cnt : Nib)
  /-- `FB.CMP` (44_fb R210). -/
  | fbCmp (ra : Reg) (rb : Reg)
  /-- `EP.NEG` (45_ep R245). -/
  | epNeg (rd : Reg) (ra : Reg)
  /-- `EP.DBL` (45_ep R246). -/
  | epDbl (rd : Reg) (ra : Reg)
  /-- `EP.ADD` (45_ep R247). -/
  | epAdd (rd : Reg) (ra : Reg) (rb : Reg)
  /-- `EP.NORM` (45_ep R248). -/
  | epNorm (rd : Reg) (ra : Reg)
  /-- `EP.MUL` (45_ep R255). -/
  | epMul (rd : Reg) (ra : Reg) (rb : Reg)
  /-- `EP.MUL.BASIC` (45_ep R257). -/
  | epMulBasic (rd : Reg) (ra : Reg) (rb : Reg)
  /-- `EP.MUL.LWNAF` (45_ep R258). -/
  | epMulLwnaf (rd : Reg) (ra : Reg) (rb : Reg)
  /-- `EP.MUL.RWNAF` (45_ep R259). -/
  | epMulRwnaf (rd : Reg) (ra : Reg) (rb : Reg)
  /-- `EP.SIM` (45_ep R263). -/
  | epSim (rd : Reg) (ra : Reg) (rb : Reg) (rc : Reg) (re : Reg)
  /-- `EP.SIM.BASIC` (45_ep R264). -/
  | epSimBasic (rd : Reg) (ra : Reg) (rb : Reg) (rc : Reg) (re : Reg)
  /-- `EP.SIM.TRICK` (45_ep R265). -/
  | epSimTrick (rd : Reg) (ra : Reg) (rb : Reg) (rc : Reg) (re : Reg)
  /-- `EP.SIM.INTER` (45_ep R266). -/
  | epSimInter (rd : Reg) (ra : Reg) (rb : Reg) (rc : Reg) (re : Reg)
  /-- `EP.SIM.JOINT` (45_ep R267). -/
  | epSimJoint (rd : Reg) (ra : Reg) (rb : Reg) (rc : Reg) (re : Reg)
  /-- `EB.NEG` (46_eb R284). -/
  | ebNeg (rd : Reg) (ra : Reg)
  /-- `EB.DBL` (46_eb R285). -/
  | ebDbl (rd : Reg) (ra : Reg)
  /-- `EB.ADD` (46_eb R286). -/
  | ebAdd (rd : Reg) (ra : Reg) (rb : Reg)
  /-- `EB.NORM` (46_eb R287). -/
  | ebNorm (rd : Reg) (ra : Reg)
  /-- `EB.FRB` (46_eb R288). -/
  | ebFrb (rd : Reg) (ra : Reg)
  /-- `EB.HLV` (46_eb R289). -/
  | ebHlv (rd : Reg) (ra : Reg)
  /-- `EB.MUL` (46_eb R298). -/
  | ebMul (rd : Reg) (ra : Reg) (rb : Reg)
  /-- `EB.MUL.BASIC` (46_eb R299). -/
  | ebMulBasic (rd : Reg) (ra : Reg) (rb : Reg)
  /-- `EB.MUL.LWNAF` (46_eb R300). -/
  | ebMulLwnaf (rd : Reg) (ra : Reg) (rb : Reg)
  /-- `EB.MUL.RWNAF` (46_eb R301). -/
  | ebMulRwnaf (rd : Reg) (ra : Reg) (rb : Reg)
  /-- `EB.MUL.LODAH` (46_eb R302). -/
  | ebMulLodah (rd : Reg) (ra : Reg) (rb : Reg)
  /-- `EB.MUL.HALVE` (46_eb R303). -/
  | ebMulHalve (rd : Reg) (ra : Reg) (rb : Reg)
  /-- `EB.SIM` (46_eb R308). -/
  | ebSim (rd : Reg) (ra : Reg) (rb : Reg) (rc : Reg) (re : Reg)
  /-- `EB.SIM.BASIC` (46_eb R309). -/
  | ebSimBasic (rd : Reg) (ra : Reg) (rb : Reg) (rc : Reg) (re : Reg)
  /-- `EB.SIM.TRICK` (46_eb R310). -/
  | ebSimTrick (rd : Reg) (ra : Reg) (rb : Reg) (rc : Reg) (re : Reg)
  /-- `EB.SIM.INTER` (46_eb R311). -/
  | ebSimInter (rd : Reg) (ra : Reg) (rb : Reg) (rc : Reg) (re : Reg)
  /-- `EB.SIM.JOINT` (46_eb R312). -/
  | ebSimJoint (rd : Reg) (ra : Reg) (rb : Reg) (rc : Reg) (re : Reg)
deriving DecidableEq, Repr

end Sys2Proof
end

