-- ==== Sys2Proof/Decode.lean ====
section
/-! DEFINITION. Decoding (30_encoding R91, R93, R95, R97, R98, R104) and, after it, the encoder
written from the same table. The decoder is total and names why a word is undefined. -/

namespace Sys2Proof

/-- Why a word is an undefined encoding (30_encoding R98). -/
inductive Undefined where
  /-- no row of R95 has this `op` -/
  | badOp
  /-- `var` is not listed for the `op` -/
  | badVar
  /-- a field the row marks with a dash is not zero (R97) -/
  | notZero
deriving DecidableEq, Repr

/-- `c[lo+len-1 : lo]` as an unsigned integer (00_scope R18). -/
def bitsAt (c : Word) (lo len : Nat) : Nat := c.toNat / 2 ^ lo % 2 ^ len

/-- The 4-bit field of `c` whose lowest bit is `lo`. -/
def nibAt (c : Word) (lo : Nat) : Nib := ⟨bitsAt c lo 4, Nat.mod_lt _ (by decide)⟩

/-- The fields of a command word (30_encoding R91, R93). -/
structure Fields where
  op : Nat
  rd : Reg
  ra : Reg
  rb : Reg
  rc : Reg
  var : Nib
  lo : Nib
  imm16 : BitVec 16
deriving DecidableEq, Repr

/-- The `op` field, bits 31:24. -/
def opOf (c : Word) : Nat := bitsAt c 24 8

/-- All the fields of a word (30_encoding R91, R93). -/
def fieldsOf (c : Word) : Fields where
  op := opOf c
  rd := nibAt c 20
  ra := nibAt c 16
  rb := nibAt c 12
  rc := nibAt c 8
  var := nibAt c 4
  lo := nibAt c 0
  imm16 := BitVec.ofNat 16 (bitsAt c 0 16)

/-- The fields a row marks with a dash must be zero (30_encoding R97). -/
def ifZero (unused : List Nib) (i : Instr) : Except Undefined Instr :=
  if unused.all (fun n => n == 0) then .ok i else .error .notZero

/-- A row with no operand. -/
def opsNone (f : Fields) (i : Instr) : Except Undefined Instr :=
  ifZero [f.rd, f.ra, f.rb, f.rc, f.lo] i

/-- A row with operands `sp`, `rd` (40_dv R111). -/
def opsSpR (f : Fields) (mk : Nib → Reg → Instr) : Except Undefined Instr :=
  ifZero [f.ra, f.rb, f.rc] (mk f.lo f.rd)

/-- A row with operands `sp`, `rd`, `ra` (40_dv R112). -/
def opsSpRR (f : Fields) (mk : Nib → Reg → Reg → Instr) : Except Undefined Instr :=
  ifZero [f.rb, f.rc] (mk f.lo f.rd f.ra)

/-- A row with operands `sp`, `ra`, `rb` (40_dv R113). -/
def opsSpCmp (f : Fields) (mk : Nib → Reg → Reg → Instr) : Except Undefined Instr :=
  ifZero [f.rd, f.rc] (mk f.lo f.ra f.rb)

/-- A row with operands `rd`, `ra`, `rb`. -/
def opsRRR (f : Fields) (mk : Reg → Reg → Reg → Instr) : Except Undefined Instr :=
  ifZero [f.rc, f.lo] (mk f.rd f.ra f.rb)

/-- A row with operands `rd`, `ra`. -/
def opsRR (f : Fields) (mk : Reg → Reg → Instr) : Except Undefined Instr :=
  ifZero [f.rb, f.rc, f.lo] (mk f.rd f.ra)

/-- A row with operands `ra`, `rb`. -/
def opsCmp (f : Fields) (mk : Reg → Reg → Instr) : Except Undefined Instr :=
  ifZero [f.rd, f.rc, f.lo] (mk f.ra f.rb)

/-- A row with the one operand `ra`. -/
def opsOne (f : Fields) (mk : Reg → Instr) : Except Undefined Instr :=
  ifZero [f.rd, f.rb, f.rc, f.lo] (mk f.ra)

/-- A row with operands `rd`, `ra` and the number `lo`. -/
def opsRRL (f : Fields) (mk : Reg → Reg → Nib → Instr) : Except Undefined Instr :=
  ifZero [f.rb, f.rc] (mk f.rd f.ra f.lo)

/-- `BN.DIV`: `rd` quotient, `rc` remainder, `ra`, `rb` (41_bn R127). -/
def opsDiv (f : Fields) (mk : Reg → Reg → Reg → Reg → Instr) : Except Undefined Instr :=
  ifZero [f.lo] (mk f.rd f.rc f.ra f.rb)

/-- The two-scalar rows: `rd`, `ra`, `rb`, `rc`, `re = lo` (30_encoding R95). -/
def opsSim (f : Fields) (mk : Reg → Reg → Reg → Reg → Reg → Instr) : Except Undefined Instr :=
  ifZero [] (mk f.rd f.ra f.rb f.rc f.lo)

/-- Format S (30_encoding R93): no unused field and no `var`. -/
def opsShift (f : Fields) (mk : Reg → Reg → BitVec 16 → Instr) : Except Undefined Instr :=
  .ok (mk f.rd f.ra f.imm16)

/-- An `op` whose only listed `var` is 0 (30_encoding R97). -/
def var0 (f : Fields) (r : Except Undefined Instr) : Except Undefined Instr :=
  if f.var = 0 then r else .error .badVar

/-- The rows of 30_encoding R95, by `op` and `var`. -/
def decodeFields (f : Fields) : Except Undefined Instr :=
  match f.op with
  | 0x00 => var0 f (opsNone f .nop)
  | 0x01 => var0 f (opsNone f .ctxInit)
  | 0x02 => var0 f (opsNone f .clrerr)
  | 0x10 => var0 f (opsSpR f .dvZero)
  | 0x11 => var0 f (opsSpRR f .dvCopy)
  | 0x12 => var0 f (opsSpCmp f .dvCmp)
  | 0x20 => var0 f (opsRRR f .bnAdd)
  | 0x21 => var0 f (opsRRR f .bnSub)
  | 0x22 => var0 f (opsRRR f .bnMul)
  | 0x23 => var0 f (opsRR f .bnSqr)
  | 0x24 => var0 f (opsDiv f .bnDiv)
  | 0x25 => var0 f (opsRRR f .bnMod)
  | 0x26 => var0 f (opsRRR f .bnGcd)
  | 0x27 => opsShift f .bnLsh
  | 0x28 => opsShift f .bnRsh
  | 0x30 => var0 f (opsRRL f .recNaf)
  | 0x31 => var0 f (opsRRR f .recJsf)
  | 0x32 => var0 f (opsRRL f .recTnaf)
  | 0x33 => var0 f (opsRRL f .recWin)
  | 0x34 => var0 f (opsRRL f .recReg)
  | 0x40 => var0 f (opsRRR f .fpAdd)
  | 0x41 => var0 f (opsRRR f .fpSub)
  | 0x42 => var0 f (opsRR f .fpNeg)
  | 0x43 => var0 f (opsRR f .fpDbl)
  | 0x44 => var0 f (opsRR f .fpHlv)
  | 0x45 => var0 f (opsRRR f .fpMul)
  | 0x46 => var0 f (opsRR f .fpSqr)
  | 0x47 => var0 f (opsRR f .fpInv)
  | 0x48 =>
    match f.var.val with
    | 0 => opsRRR f .fpExp
    | 1 => opsRRR f .fpExpMonty
    | _ => .error .badVar
  | 0x49 => var0 f (opsRR f .fpSrt)
  | 0x4A => var0 f (opsCmp f .fpCmp)
  | 0x4B => var0 f (opsRR f .fpConv)
  | 0x4C => var0 f (opsRR f .fpBack)
  | 0x4D => var0 f (opsRRR f .fpMuln)
  | 0x4E =>
    match f.var.val with
    | 0 => opsRR f .fpRdc
    | 1 => opsRR f .fpRdcn
    | 2 => opsRR f .fpRdcs
    | _ => .error .badVar
  | 0x50 => var0 f (opsRRR f .fbAdd)
  | 0x51 => var0 f (opsRRR f .fbMul)
  | 0x52 => var0 f (opsRR f .fbSqr)
  | 0x53 => var0 f (opsRRR f .fbMuln)
  | 0x54 => var0 f (opsRR f .fbRdc)
  | 0x55 => var0 f (opsRR f .fbSrt)
  | 0x56 => var0 f (opsOne f .fbTrc)
  | 0x57 => var0 f (opsRR f .fbSlv)
  | 0x58 =>
    match f.var.val with
    | 0 => opsRR f .fbInv
    | 1 => opsRR f .fbInvBasic
    | 2 => opsRR f .fbInvBinar
    | 3 => opsRR f .fbInvAlmos
    | 4 => opsRR f .fbInvExgcd
    | 5 => opsRR f .fbInvItoht
    | 6 => opsRR f .fbInvLower
    | _ => .error .badVar
  | 0x59 => var0 f (opsRRL f .fbInvSim)
  | 0x5A => var0 f (opsCmp f .fbCmp)
  | 0x60 => var0 f (opsRR f .epNeg)
  | 0x61 => var0 f (opsRR f .epDbl)
  | 0x62 => var0 f (opsRRR f .epAdd)
  | 0x63 => var0 f (opsRR f .epNorm)
  | 0x70 =>
    match f.var.val with
    | 0 => opsRRR f .epMul
    | 1 => opsRRR f .epMulBasic
    | 2 => opsRRR f .epMulLwnaf
    | 3 => opsRRR f .epMulRwnaf
    | _ => .error .badVar
  | 0x71 =>
    match f.var.val with
    | 0 => opsSim f .epSim
    | 1 => opsSim f .epSimBasic
    | 2 => opsSim f .epSimTrick
    | 3 => opsSim f .epSimInter
    | 4 => opsSim f .epSimJoint
    | _ => .error .badVar
  | 0x80 => var0 f (opsRR f .ebNeg)
  | 0x81 => var0 f (opsRR f .ebDbl)
  | 0x82 => var0 f (opsRRR f .ebAdd)
  | 0x83 => var0 f (opsRR f .ebNorm)
  | 0x84 => var0 f (opsRR f .ebFrb)
  | 0x85 => var0 f (opsRR f .ebHlv)
  | 0x90 =>
    match f.var.val with
    | 0 => opsRRR f .ebMul
    | 1 => opsRRR f .ebMulBasic
    | 2 => opsRRR f .ebMulLwnaf
    | 3 => opsRRR f .ebMulRwnaf
    | 4 => opsRRR f .ebMulLodah
    | 5 => opsRRR f .ebMulHalve
    | _ => .error .badVar
  | 0x91 =>
    match f.var.val with
    | 0 => opsSim f .ebSim
    | 1 => opsSim f .ebSimBasic
    | 2 => opsSim f .ebSimTrick
    | 3 => opsSim f .ebSimInter
    | 4 => opsSim f .ebSimJoint
    | _ => .error .badVar
  | _ => .error .badOp

/-- The decoder (30_encoding R104). -/
def decode (c : Word) : Except Undefined Instr := decodeFields (fieldsOf c)

/-- The instruction of a table row's word. The word is one 32-bit command word, so there is one
order of its bits; bits above `nbits` are 0. -/
def decodeTableWord (nbits w : Nat) : Option Instr :=
  (decode (BitVec.ofNat 32 (w % 2 ^ nbits))).toOption

/-! The operand-field checks that decoding leaves to each command (30_encoding R104). -/

/-- The register files that `sp` names: window spaces 2 to 8 (40_dv R110). -/
def spFile (sp : Nib) : Bool := decide (2 ≤ sp.val ∧ sp.val ≤ 8)

/-- The files that `DV.CMP` compares: `DV`, `N`, `FP`, `FB` (40_dv R113). -/
def spCompared (sp : Nib) : Bool := sp == 2 || sp == 3 || sp == 5 || sp == 6

/-- The window widths of the signed recodings and of `REC.REG` (42_rec R143, R148, R152). -/
def signedWidth (w : Nib) : Bool := decide (2 ≤ w.val ∧ w.val ≤ 8)

/-- The window widths of `REC.WIN` (42_rec R150). -/
def unsignedWidth (w : Nib) : Bool := decide (1 ≤ w.val ∧ w.val ≤ 8)

/-- `FB.INV.SIM` with count field `cnt` stays within registers 0 to 15 (44_fb R218; `cnt` encodes
n − 1, 30_encoding R94). -/
def simRange (rd ra : Reg) (cnt : Nib) : Bool :=
  decide (ra.val + cnt.val ≤ 15 ∧ rd.val + cnt.val ≤ 15)

/-- A format R word (30_encoding R91). -/
def wordR (op : Nat) (rd ra rb rc : Reg) (var lo : Nib) : Word :=
  BitVec.ofNat 32 (op * 2 ^ 24 + rd.val * 2 ^ 20 + ra.val * 2 ^ 16 + rb.val * 2 ^ 12 +
    rc.val * 2 ^ 8 + var.val * 2 ^ 4 + lo.val)

/-- A format S word (30_encoding R93). -/
def wordS (op : Nat) (rd ra : Reg) (imm16 : BitVec 16) : Word :=
  BitVec.ofNat 32 (op * 2 ^ 24 + rd.val * 2 ^ 20 + ra.val * 2 ^ 16 + imm16.toNat)

/-- The command word of an instruction (30_encoding R95). -/
def encode : Instr → Word
  | .nop => wordR 0x00 0 0 0 0 0 0
  | .ctxInit => wordR 0x01 0 0 0 0 0 0
  | .clrerr => wordR 0x02 0 0 0 0 0 0
  | .dvZero sp rd => wordR 0x10 rd 0 0 0 0 sp
  | .dvCopy sp rd ra => wordR 0x11 rd ra 0 0 0 sp
  | .dvCmp sp ra rb => wordR 0x12 0 ra rb 0 0 sp
  | .bnAdd rd ra rb => wordR 0x20 rd ra rb 0 0 0
  | .bnSub rd ra rb => wordR 0x21 rd ra rb 0 0 0
  | .bnMul rd ra rb => wordR 0x22 rd ra rb 0 0 0
  | .bnSqr rd ra => wordR 0x23 rd ra 0 0 0 0
  | .bnDiv rd rc ra rb => wordR 0x24 rd ra rb rc 0 0
  | .bnMod rd ra rb => wordR 0x25 rd ra rb 0 0 0
  | .bnGcd rd ra rb => wordR 0x26 rd ra rb 0 0 0
  | .bnLsh rd ra imm16 => wordS 0x27 rd ra imm16
  | .bnRsh rd ra imm16 => wordS 0x28 rd ra imm16
  | .recNaf rd ra w => wordR 0x30 rd ra 0 0 0 w
  | .recJsf rd ra rb => wordR 0x31 rd ra rb 0 0 0
  | .recTnaf rd ra w => wordR 0x32 rd ra 0 0 0 w
  | .recWin rd ra w => wordR 0x33 rd ra 0 0 0 w
  | .recReg rd ra w => wordR 0x34 rd ra 0 0 0 w
  | .fpAdd rd ra rb => wordR 0x40 rd ra rb 0 0 0
  | .fpSub rd ra rb => wordR 0x41 rd ra rb 0 0 0
  | .fpNeg rd ra => wordR 0x42 rd ra 0 0 0 0
  | .fpDbl rd ra => wordR 0x43 rd ra 0 0 0 0
  | .fpHlv rd ra => wordR 0x44 rd ra 0 0 0 0
  | .fpMul rd ra rb => wordR 0x45 rd ra rb 0 0 0
  | .fpSqr rd ra => wordR 0x46 rd ra 0 0 0 0
  | .fpInv rd ra => wordR 0x47 rd ra 0 0 0 0
  | .fpExp rd ra rb => wordR 0x48 rd ra rb 0 0 0
  | .fpExpMonty rd ra rb => wordR 0x48 rd ra rb 0 1 0
  | .fpSrt rd ra => wordR 0x49 rd ra 0 0 0 0
  | .fpCmp ra rb => wordR 0x4A 0 ra rb 0 0 0
  | .fpConv rd ra => wordR 0x4B rd ra 0 0 0 0
  | .fpBack rd ra => wordR 0x4C rd ra 0 0 0 0
  | .fpMuln rd ra rb => wordR 0x4D rd ra rb 0 0 0
  | .fpRdc rd ra => wordR 0x4E rd ra 0 0 0 0
  | .fpRdcn rd ra => wordR 0x4E rd ra 0 0 1 0
  | .fpRdcs rd ra => wordR 0x4E rd ra 0 0 2 0
  | .fbAdd rd ra rb => wordR 0x50 rd ra rb 0 0 0
  | .fbMul rd ra rb => wordR 0x51 rd ra rb 0 0 0
  | .fbSqr rd ra => wordR 0x52 rd ra 0 0 0 0
  | .fbMuln rd ra rb => wordR 0x53 rd ra rb 0 0 0
  | .fbRdc rd ra => wordR 0x54 rd ra 0 0 0 0
  | .fbSrt rd ra => wordR 0x55 rd ra 0 0 0 0
  | .fbTrc ra => wordR 0x56 0 ra 0 0 0 0
  | .fbSlv rd ra => wordR 0x57 rd ra 0 0 0 0
  | .fbInv rd ra => wordR 0x58 rd ra 0 0 0 0
  | .fbInvBasic rd ra => wordR 0x58 rd ra 0 0 1 0
  | .fbInvBinar rd ra => wordR 0x58 rd ra 0 0 2 0
  | .fbInvAlmos rd ra => wordR 0x58 rd ra 0 0 3 0
  | .fbInvExgcd rd ra => wordR 0x58 rd ra 0 0 4 0
  | .fbInvItoht rd ra => wordR 0x58 rd ra 0 0 5 0
  | .fbInvLower rd ra => wordR 0x58 rd ra 0 0 6 0
  | .fbInvSim rd ra cnt => wordR 0x59 rd ra 0 0 0 cnt
  | .fbCmp ra rb => wordR 0x5A 0 ra rb 0 0 0
  | .epNeg rd ra => wordR 0x60 rd ra 0 0 0 0
  | .epDbl rd ra => wordR 0x61 rd ra 0 0 0 0
  | .epAdd rd ra rb => wordR 0x62 rd ra rb 0 0 0
  | .epNorm rd ra => wordR 0x63 rd ra 0 0 0 0
  | .epMul rd ra rb => wordR 0x70 rd ra rb 0 0 0
  | .epMulBasic rd ra rb => wordR 0x70 rd ra rb 0 1 0
  | .epMulLwnaf rd ra rb => wordR 0x70 rd ra rb 0 2 0
  | .epMulRwnaf rd ra rb => wordR 0x70 rd ra rb 0 3 0
  | .epSim rd ra rb rc re => wordR 0x71 rd ra rb rc 0 re
  | .epSimBasic rd ra rb rc re => wordR 0x71 rd ra rb rc 1 re
  | .epSimTrick rd ra rb rc re => wordR 0x71 rd ra rb rc 2 re
  | .epSimInter rd ra rb rc re => wordR 0x71 rd ra rb rc 3 re
  | .epSimJoint rd ra rb rc re => wordR 0x71 rd ra rb rc 4 re
  | .ebNeg rd ra => wordR 0x80 rd ra 0 0 0 0
  | .ebDbl rd ra => wordR 0x81 rd ra 0 0 0 0
  | .ebAdd rd ra rb => wordR 0x82 rd ra rb 0 0 0
  | .ebNorm rd ra => wordR 0x83 rd ra 0 0 0 0
  | .ebFrb rd ra => wordR 0x84 rd ra 0 0 0 0
  | .ebHlv rd ra => wordR 0x85 rd ra 0 0 0 0
  | .ebMul rd ra rb => wordR 0x90 rd ra rb 0 0 0
  | .ebMulBasic rd ra rb => wordR 0x90 rd ra rb 0 1 0
  | .ebMulLwnaf rd ra rb => wordR 0x90 rd ra rb 0 2 0
  | .ebMulRwnaf rd ra rb => wordR 0x90 rd ra rb 0 3 0
  | .ebMulLodah rd ra rb => wordR 0x90 rd ra rb 0 4 0
  | .ebMulHalve rd ra rb => wordR 0x90 rd ra rb 0 5 0
  | .ebSim rd ra rb rc re => wordR 0x91 rd ra rb rc 0 re
  | .ebSimBasic rd ra rb rc re => wordR 0x91 rd ra rb rc 1 re
  | .ebSimTrick rd ra rb rc re => wordR 0x91 rd ra rb rc 2 re
  | .ebSimInter rd ra rb rc re => wordR 0x91 rd ra rb rc 3 re
  | .ebSimJoint rd ra rb rc re => wordR 0x91 rd ra rb rc 4 re

end Sys2Proof
end

