-- ==== Sys2Proof/Config.lean ====
section
/-! DEFINITION. What a build fixes (00_scope section 3: "every parameter a model takes as an argument"),
as plain data, and the source of the values that the spec leaves open. -/

namespace Sys2Proof

/-- `FP_RDC`: the reduction back-end (00_scope R13, 43_fp R182). -/
inductive FpRdc where
  | monty
  | sparse
deriving DecidableEq, Repr

/-- `FP_EXP`: the exponentiation method (00_scope R13). -/
inductive FpExp where
  | basic
  | monty
deriving DecidableEq, Repr

/-- `FB_INV`: the inversion variants of the binary field (00_scope R13, 44_fb R212 to R217). -/
inductive FbInv where
  | basic
  | binar
  | almos
  | exgcd
  | itoht
  | lower
deriving DecidableEq, Repr

/-- `EP_MUL`: the scalar multiplications of the prime curve (00_scope R13, 45_ep R257 to R259). -/
inductive EpMul where
  | basic
  | lwnaf
  | rwnaf
deriving DecidableEq, Repr

/-- `EB_MUL`: the scalar multiplications of the binary curve (00_scope R13, 46_eb R299 to R303). -/
inductive EbMul where
  | basic
  | lwnaf
  | rwnaf
  | lodah
  | halve
deriving DecidableEq, Repr

/-- `EP_SIM`, `EB_SIM`: the two-scalar methods (00_scope R13, 45_ep R264 to R267). -/
inductive SimMethod where
  | basic
  | trick
  | inter
  | joint
deriving DecidableEq, Repr

/-- The implementation parameters of 00_scope R8 to R16. No command and no host write changes one
(R14). `trickWidth` is the window of 45_ep R265, for which the source gives no value; `hasFbt` says
whether the build has the fixed-base table of 10_state R56; the `…Set` fields and `expMonty` are the
implemented variants (92 D28: a build may implement any subset of the named variants). -/
structure Build where
  /-- `W`, digit width in bits (R8). -/
  W : Nat
  /-- `FP_BITS`, bit length of p; 0 when there is no prime-field unit (R9). -/
  fpBits : Nat
  /-- `m`, degree of the binary field; 0 when there is no binary-field unit (R10). -/
  m : Nat
  /-- `BN_DIGS` (R15). -/
  bnDigs : Nat
  /-- `DV_DIGS` (R15). -/
  dvDigs : Nat
  /-- `RC_LEN` (R15). -/
  rcLen : Nat
  /-- `TNAF_EXTRA` (R15, 42_rec R148). -/
  tnafExtra : Nat
  /-- `SF_MAX` (R15). -/
  sfMax : Nat
  /-- `CHAIN_MAX` (R15). -/
  chainMax : Nat
  /-- `KARAT` (R11): no rule reads it. -/
  karat : Nat
  /-- `FP_WIDTH` (R12): no effect on any result. -/
  fpWidth : Nat
  /-- `FB_WIDTH` (R12): no effect on any result. -/
  fbWidth : Nat
  /-- `EP_WIDTH` (R12). -/
  epWidth : Nat
  /-- `EB_WIDTH` (R12). -/
  ebWidth : Nat
  /-- The window of the trick method (45_ep R265). -/
  trickWidth : Nat
  /-- `FP_RDC` (R13). -/
  fpRdc : FpRdc
  /-- `FP_EXP` (R13). -/
  fpExp : FpExp
  /-- `FB_INV` (R13). -/
  fbInv : FbInv
  /-- `EP_MUL` (R13). -/
  epMul : EpMul
  /-- `EP_SIM` (R13). -/
  epSim : SimMethod
  /-- `EB_MUL` (R13). -/
  ebMul : EbMul
  /-- `EB_SIM` (R13). -/
  ebSim : SimMethod
  /-- `FP.EXP.MONTY` is implemented (R14, 92 D28). -/
  expMonty : Bool
  /-- The implemented named reductions, `FP.RDCN` for `monty` and `FP.RDCS` for `sparse` (R14, 92 D28). -/
  rdcSet : List FpRdc
  /-- The implemented inversion variants (R14, 92 D28). -/
  fbInvSet : List FbInv
  /-- The implemented multipliers of the prime curve (R14, 92 D28). -/
  epMulSet : List EpMul
  /-- The implemented two-scalar methods of the prime curve (R14, 92 D28). -/
  epSimSet : List SimMethod
  /-- The implemented multipliers of the binary curve (R14, 92 D28). -/
  ebMulSet : List EbMul
  /-- The implemented two-scalar methods of the binary curve (R14, 92 D28). -/
  ebSimSet : List SimMethod
  /-- `EP_CHECK` (R15). -/
  epCheck : Bool
  /-- `EB_CHECK` (R15). -/
  ebCheck : Bool
  /-- `EB_MIXED_STRIP` (R15). -/
  mixedStrip : Bool
  /-- The build has a fixed-base table (10_state R56). -/
  hasFbt : Bool
  /-- `CTX.FB_CHAIN`, entries `chain[1..len]` as pairs (x, y) (10_state R54). -/
  chain : List (Nat × Nat)
deriving DecidableEq, Repr

/-- `FP_DIGS = ⌈FP_BITS / W⌉` (00_scope R9). -/
def Build.fpDigs (b : Build) : Nat := (b.fpBits + b.W - 1) / b.W

/-- `FB_DIGS = ⌈m / W⌉` (00_scope R10). -/
def Build.fbDigs (b : Build) : Nat := (b.m + b.W - 1) / b.W

/-- `HAS_FP` (00_scope R9). -/
def Build.hasFp (b : Build) : Bool := decide (0 < b.fpBits)

/-- `HAS_FB` (00_scope R10). -/
def Build.hasFb (b : Build) : Bool := decide (0 < b.m)

/-- The exponents `u[0..len]` of an addition chain (10_state R54): `u[0] = 1`,
`u[i] = u[x] + u[y]`. -/
def Build.chainExps : List (Nat × Nat) → List Nat → List Nat
  | [], us => us
  | (x, y) :: rest, us => Build.chainExps rest (us ++ [us.getD x 0 + us.getD y 0])

/-- Every entry `chain[i] = (x, y)` has `y ≤ x < i`, counting from `i` (10_state R54). -/
def Build.chainOrdered : List (Nat × Nat) → Nat → Bool
  | [], _ => true
  | (x, y) :: rest, i => decide (y ≤ x) && decide (x < i) && Build.chainOrdered rest (i + 1)

/-- The chain is one that 10_state R54 allows for the degree `m`, within `CHAIN_MAX` and within the
8-bit fields of its window view (20_memory R74). For m = 2 the chain is empty: `u[0] = 1 = m − 1`. -/
def Build.chainWf (b : Build) : Bool :=
  (b.chain.isEmpty || b.chain.head? == some (0, 0)) && Build.chainOrdered b.chain 1 &&
  (Build.chainExps b.chain [1]).getLastD 0 == b.m - 1 &&
  decide (2 * (Nat.log2 (b.m - 1) + 1) ≤ b.chainMax) &&
  decide (b.chain.length ≤ b.chainMax) && decide (b.chain.length ≤ 256)

/-- The constraints of 00_scope R8, R12, R14, R15, R16 and 92 D45 on a build. The bound on `FP_DIGS`
is what 43_fp R162 says every supported pair satisfies. -/
def Build.wf (b : Build) : Bool :=
  (b.W == 8 || b.W == 16 || b.W == 32 || b.W == 64) &&
  (b.fpBits == 0 || decide (2 ≤ b.fpBits)) && (b.m == 0 || decide (2 ≤ b.m)) &&
  (b.hasFp || b.hasFb) &&
  decide (b.fpDigs + 1 < 2 ^ b.W) &&
  decide (2 * max b.fpDigs b.fbDigs + 2 ≤ b.bnDigs) &&
  decide (2 * max b.fpDigs b.fbDigs ≤ b.dvDigs) &&
  decide (b.bnDigs * b.W + 1 ≤ b.rcLen) && decide (b.m + b.tnafExtra ≤ b.rcLen) &&
  (!b.hasFp || decide (1 ≤ b.sfMax)) &&
  decide (2 ≤ b.epWidth ∧ b.epWidth ≤ 8) && decide (2 ≤ b.ebWidth ∧ b.ebWidth ≤ 8) &&
  decide (1 ≤ b.trickWidth ∧ b.trickWidth ≤ 8) &&
  (b.fpExp == .basic || b.expMonty) && decide (b.fpRdc ∈ b.rdcSet) &&
  decide (b.fbInv ∈ b.fbInvSet) &&
  decide (b.epMul ∈ b.epMulSet) && decide (b.epSim ∈ b.epSimSet) &&
  decide (b.ebMul ∈ b.ebMulSet) && decide (b.ebSim ∈ b.ebSimSet) &&
  (!b.hasFb || b.chainWf)

/-- The build `TOY` of 95_test_vectors section 1.1: the build of the machine after `State.reset`
(DESIGN CHOICE, log 1; unsafe: the spec gives no build of its own). -/
def Build.toy : Build where
  W := 8
  fpBits := 16
  m := 17
  bnDigs := 8
  dvDigs := 6
  rcLen := 65
  tnafExtra := 4
  sfMax := 4
  chainMax := 10
  karat := 0
  fpWidth := 2
  fbWidth := 2
  epWidth := 4
  ebWidth := 4
  trickWidth := 2
  fpRdc := .monty
  fpExp := .basic
  fbInv := .exgcd
  epMul := .lwnaf
  epSim := .inter
  ebMul := .lodah
  ebSim := .inter
  expMonty := true
  rdcSet := [.monty, .sparse]
  fbInvSet := [.basic, .binar, .almos, .exgcd, .itoht, .lower]
  epMulSet := [.basic, .lwnaf, .rwnaf]
  epSimSet := [.basic, .trick, .inter, .joint]
  ebMulSet := [.basic, .lwnaf, .rwnaf, .lodah, .halve]
  ebSimSet := [.basic, .trick, .inter, .joint]
  epCheck := true
  ebCheck := true
  mixedStrip := false
  hasFbt := false
  chain := [(0, 0), (1, 1), (2, 2), (3, 3)]

/-- The build `TOY-S` of 95_test_vectors section 1.1: `TOY` with `FP_RDC = SPARSE`. -/
def Build.toyS : Build := { Build.toy with fpRdc := .sparse }

/-- The k-th free value: a value that the spec leaves open (00_scope R27, 93 `any value`). It has no
body, so nothing can be proved of it (log 2). -/
opaque Config.freeValue : Nat → Nat

end Sys2Proof
end

