-- ==== Sys2Proof/Machine/State.lean ====
section
/-! DEFINITION. The architectural state of RLC-CORE (10_state R30 to R66) as plain data, the reasons a
step can stop, and the machine after reset (R62 to R66, 70_reset R361). A digit vector is held as its
integer value `val(d)` (00_scope R18). -/

namespace Sys2Proof.Machine

/-- The five fault kinds of 60_exceptions R330. `outOfMemory` and `internal` are never raised
(R331, R343). -/
inductive Kind where
  | outOfMemory
  | precisionExceeded
  | invalidInput
  | noValidConfig
  | internal
deriving DecidableEq, Repr

/-- Why the MACHINE stops (not a fault kind of the engine, which is an exception with a next state).
The spec lets no command and no transaction stop the block. -/
inductive Fault where
  /-- raised by `step` on a host write whose value does not fit its location: 20_memory R73 speaks
  only of "v of the location's width", so no rule says what such a write does. Safe (log 5). -/
  | valueWiderThanLocation
deriving DecidableEq, Repr

/-- Why an instruction has no meaning here. -/
inductive Refusal where
  /-- raised by `exec` for a row of the opcode table that is not modelled yet. Safe. -/
  | notModelled (mnemonic : String)
deriving DecidableEq, Repr

/-- A `BigInt` register: sign and magnitude (10_state R31, 00_scope R20). -/
structure BigReg where
  /-- 1 for minus -/
  sign : Bool
  /-- `val(digits)` -/
  mag : Nat
deriving DecidableEq, Repr

/-- A `CurvePoint` register (10_state R35). -/
structure PointReg where
  x : Nat
  y : Nat
  z : Nat
  norm : Bool
deriving DecidableEq, Repr

/-- A recoding buffer: `RC_LEN` entries, entry 0 first, and a length (10_state R38). -/
structure RecReg where
  len : Nat
  d : List Byte
deriving DecidableEq, Repr

/-- `STATUS` (10_state R41); the other 28 bits read zero. -/
structure Status where
  busy : Bool
  done : Bool
  errf : Bool
  init : Bool
deriving DecidableEq, Repr

/-- `ERR` (10_state R42): the kind of the fault, none for code 0, and the `op` of the command. -/
structure ErrReg where
  kind : Option Kind
  op : Nat
deriving DecidableEq, Repr

/-- `FLAGS.CMP` (10_state R40): 0 equal, 1 less, 2 greater; "3 is never produced". -/
inductive CmpResult where
  | equal
  | less
  | greater
deriving DecidableEq, Repr

/-- `FLAGS` (10_state R40). -/
structure Flags where
  cmp : CmpResult
  t : Bool
deriving DecidableEq, Repr

/-- A term of the sparse form of p: `eps = −1` when `neg`, exponent `s` (10_state R47; the 1 + 16 bits
that 20_memory R74 keeps). -/
structure SparseTerm where
  neg : Bool
  s : BitVec 16
deriving DecidableEq, Repr

/-- `CTX.EB_FLAGS` (10_state R52). -/
structure EbFlags where
  kbltz : Bool
  super : Bool
  muneg : Bool
deriving DecidableEq, Repr

/-- The hidden `CTX.TNAF`: "(vm, s0, s1)" (10_state R55). -/
structure TnafConsts where
  vm : Nat
  s0 : Nat
  s1 : Nat
deriving DecidableEq, Repr

/-- The constants a, b, G = (gx, gy), n and h of one curve (10_state R50 to R53). -/
structure CurveCtx where
  a : Nat
  b : Nat
  gx : Nat
  gy : Nat
  n : Nat
  h : Nat
deriving DecidableEq, Repr

/-- The context registers (10_state R44 to R56). `CTX.FB_CHAIN` is in the build (R54). -/
structure Ctx where
  /-- `CTX.FP_P` (R45) -/
  fpP : Nat
  /-- `CTX.FP_U` (R46) -/
  fpU : Nat
  /-- `CTX.FP_SPARSE.cnt` (R47) -/
  sfCnt : BitVec 32
  /-- `CTX.FP_SPARSE.top` (R47) -/
  sfTop : BitVec 32
  /-- the `SF_MAX` terms of `CTX.FP_SPARSE` (R47) -/
  sfTerms : List SparseTerm
  /-- `CTX.FP_ONE` (R48) -/
  fpOne : Nat
  /-- the hidden `RR` (R48) -/
  rr : Nat
  /-- `CTX.FB_POLY` (R49) -/
  fa : BitVec 32
  fb : BitVec 32
  fc : BitVec 32
  /-- `CTX.EP_A` .. `CTX.EP_H` (R50, R51) -/
  ep : CurveCtx
  /-- `CTX.EB_A` .. `CTX.EB_H` (R52, R53) -/
  eb : CurveCtx
  /-- `CTX.EB_FLAGS` (R52) -/
  ebFlags : EbFlags
  /-- the hidden `CTX.TNAF` (R55) -/
  tnaf : TnafConsts
  /-- the hidden `CTX.FBT` (R56), whose format is implementation-defined -/
  fbt : Option Nat
deriving DecidableEq, Repr

/-- A window address (20_memory R71): the tuple `(space, reg, comp, idx)`. -/
structure HAddr where
  space : Fin 16
  reg : Fin 16
  comp : Fin 4
  idx : Fin 4096
deriving DecidableEq, Repr

/-- What the world outside presents: the host's transactions (20_memory R72, R73) and the platform's
reset (70_reset R360). -/
inductive Txn where
  | read (a : HAddr)
  | write (a : HAddr) (v : Nat)
  | reset
deriving DecidableEq, Repr

/-- What comes next from the world outside: a transaction is presented, also while a command runs, or none is
until the running command has ended (20_memory R80, log 19). -/
inductive Arrival where
  | present (t : Txn)
  | pause
deriving DecidableEq, Repr

/-- The machine. The last six fields are the model's own: the build (log 1), what the host will present,
what it has presented that waits for a running command, and what its last read returned (log 3, log
19), and where free values come from (log 2). -/
structure State where
  /-- `N[0..15]` (10_state R31) -/
  n : Vector BigReg 16
  /-- `FP[0..15]` (R33) -/
  fp : Vector Nat 16
  /-- `FB[0..15]` (R34) -/
  fb : Vector Nat 16
  /-- `EP[0..15]` (R35) -/
  ep : Vector PointReg 16
  /-- `EB[0..15]` (R35) -/
  eb : Vector PointReg 16
  /-- `DV[0..15]` (R37) -/
  dv : Vector Nat 16
  /-- `RC[0..15]` (R38) -/
  rc : Vector RecReg 16
  /-- `STATUS` (R41) -/
  status : Status
  /-- `ERR` (R42) -/
  err : ErrReg
  /-- `FLAGS` (R40) -/
  flags : Flags
  /-- `CTX.*` (R44 to R56) -/
  ctx : Ctx
  /-- `SEQ` (R59): the command in progress while `BUSY = 1` -/
  running : Option Word
  /-- the build's parameters (00_scope R8 to R16); no step changes them -/
  build : Build
  /-- what the world outside will yet do, oldest first -/
  inbox : List Arrival
  /-- transactions presented while a command ran, which wait for its end, oldest first (20_memory R80) -/
  held : List Txn
  /-- what the last `HostRead` returned -/
  reply : Option Nat
  /-- free values to be drawn first -/
  tape : List Nat
  /-- how many free values have been drawn -/
  draws : Nat
deriving DecidableEq, Repr

/-- The canonical point at infinity (45_ep R243). -/
def PointReg.infinity : PointReg := ⟨0, 0, 0, false⟩

/-- The zero `BigInt`, +0 (10_state R62). -/
def BigReg.zero : BigReg := ⟨false, 0⟩

/-- The zero recoding buffer (10_state R62). -/
def RecReg.zero (b : Build) : RecReg := ⟨0, List.replicate b.rcLen 0⟩

/-- Curve registers after reset (10_state R64). -/
def CurveCtx.zero : CurveCtx := ⟨0, 0, 0, 0, 0, 0⟩

/-- The context registers after reset (10_state R64). The hidden `rr`, `tnaf` and `fbt` are unspecified
then (R65); the values here are a DESIGN CHOICE (log 15, unsafe). -/
def Ctx.zero (b : Build) : Ctx where
  fpP := 0
  fpU := 0
  sfCnt := 0
  sfTop := 0
  sfTerms := List.replicate b.sfMax ⟨false, 0⟩
  fpOne := 0
  rr := 0
  fa := 0
  fb := 0
  fc := 0
  ep := CurveCtx.zero
  eb := CurveCtx.zero
  ebFlags := ⟨false, false, false⟩
  tnaf := ⟨0, 0, 0⟩
  fbt := none

/-- The machine of build `b` right after reset (10_state R62 to R66, 70_reset R361, R362). -/
def State.resetOf (b : Build) : State where
  n := Vector.replicate 16 BigReg.zero
  fp := Vector.replicate 16 0
  fb := Vector.replicate 16 0
  ep := Vector.replicate 16 PointReg.infinity
  eb := Vector.replicate 16 PointReg.infinity
  dv := Vector.replicate 16 0
  rc := Vector.replicate 16 (RecReg.zero b)
  status := ⟨false, false, false, false⟩
  err := ⟨none, 0⟩
  flags := ⟨.equal, false⟩
  ctx := Ctx.zero b
  running := none
  build := b
  inbox := []
  held := []
  reply := none
  tape := []
  draws := 0

/-- The machine right after reset, of the build `TOY` (log 1: which build is a DESIGN CHOICE). -/
def State.reset : State := State.resetOf Build.toy

end Sys2Proof.Machine
end

