-- ==== Sys2Proof/Machine/Ops.lean ====
section
/-! DEFINITION. The named operations over registers: digits, reading and writing each register file,
free values, fault entry (60_exceptions R336, R337), the return from a fault (R342), completion
(30_encoding R99, R101) and the shape every command has (R100, R338). -/

namespace Sys2Proof.Machine

/-- `bitlen(a)` (00_scope R17). -/
def bitlen (a : Nat) : Nat := if a = 0 then 0 else Nat.log2 a + 1

/-- Digit `i` of a digit vector held by its value (00_scope R18). -/
def digit (W v i : Nat) : Nat := v / 2 ^ (W * i) % 2 ^ W

/-- The digit vector with digit `i` replaced by `d` (20_memory R73). -/
def setDigit (W v i d : Nat) : Nat :=
  v % 2 ^ (W * i) + 2 ^ (W * i) * (d % 2 ^ W) + 2 ^ (W * (i + 1)) * (v / 2 ^ (W * (i + 1)))

/-- `digits_n(v)` (00_scope R18), the value that `n` digits of `W` bits hold. -/
def digits (W n v : Nat) : Nat := v % 2 ^ (W * n)

/-- The integer a `BigInt` register stands for (41_bn R121). -/
def BigReg.val (r : BigReg) : Int := if r.sign then -(r.mag : Int) else r.mag

/-- `N[i].used = max(1, ⌈bitlen(mag)/W⌉)` (10_state R31). -/
def BigReg.used (W : Nat) (r : BigReg) : Nat := max 1 ((bitlen r.mag + W - 1) / W)

/-- `N[rd] <- r`: digits of |r|, sign 1 when r < 0; zero is +0 (41_bn R121). -/
def State.putN (s : State) (rd : Reg) (r : Int) : State :=
  { s with n := s.n.set rd ⟨decide (r < 0), digits s.build.W s.build.bnDigs r.natAbs⟩ }

/-- `FP[rd] <- digits_n(v)` (43_fp). -/
def State.putFp (s : State) (rd : Reg) (v : Nat) : State :=
  { s with fp := s.fp.set rd (digits s.build.W s.build.fpDigs v) }

/-- `FB[rd] <- v` in `FB_DIGS` digits (44_fb). -/
def State.putFb (s : State) (rd : Reg) (v : Nat) : State :=
  { s with fb := s.fb.set rd (digits s.build.W s.build.fbDigs v) }

/-- `DV[rd] <- v` in `DV_DIGS` digits (43_fp R179, 44_fb R205: zero in the digits above the value). -/
def State.putDv (s : State) (rd : Reg) (v : Nat) : State :=
  { s with dv := s.dv.set rd (digits s.build.W s.build.dvDigs v) }

/-- A point with coordinates held in `n` digits of `W` bits. -/
def PointReg.fit (W n : Nat) (e : PointReg) : PointReg :=
  ⟨digits W n e.x, digits W n e.y, digits W n e.z, e.norm⟩

/-- `EP[rd] <- e` (45_ep). -/
def State.putEp (s : State) (rd : Reg) (e : PointReg) : State :=
  { s with ep := s.ep.set rd (e.fit s.build.W s.build.fpDigs) }

/-- `EB[rd] <- e` (46_eb). -/
def State.putEb (s : State) (rd : Reg) (e : PointReg) : State :=
  { s with eb := s.eb.set rd (e.fit s.build.W s.build.fbDigs) }

/-- The 8-bit image of a recoding digit, `d mod 256` (42_rec R141). -/
def byteOf (d : Int) : Byte := BitVec.ofInt 8 d

/-- The buffer that `putrc` writes: the digits, then zeros up to `RC_LEN` (42_rec R142). A recoding
always fits in a build that `Build.wf` admits (R142), so neither cut takes effect there. -/
def RecReg.ofDigits (b : Build) (ds : List Int) : RecReg :=
  ⟨min ds.length b.rcLen, (ds.map byteOf ++ List.replicate (b.rcLen - ds.length) 0).take b.rcLen⟩

/-- `putrc(r, d, L)` (42_rec R142). -/
def State.putRc (s : State) (rd : Reg) (ds : List Int) : State :=
  { s with rc := s.rc.set rd (RecReg.ofDigits s.build ds) }

/-! Free values (log 2): the next ones on the tape, then opaque ones. -/

/-- The j-th free value from here on. -/
def State.draw (s : State) (j : Nat) : Nat := s.tape.getD j (Config.freeValue (s.draws + j))

/-- The state after `k` free values were used. -/
def State.drawn (s : State) (k : Nat) : State :=
  { s with tape := s.tape.drop k, draws := s.draws + k }

/-! Faults, completion and the shape of a command. -/

/-- The code of a kind in `ERR` bits [2:0] (60_exceptions R330). -/
def Kind.code : Kind → Nat
  | .outOfMemory => 1
  | .precisionExceeded => 2
  | .invalidInput => 3
  | .noValidConfig => 4
  | .internal => 5

/-- Fault entry (60_exceptions R336): only `STATUS` and `ERR` change. -/
def takeFault (k : Kind) (op : Nat) (s : State) : State :=
  { s with
    status := { s.status with errf := true, done := false, busy := false }
    err := ⟨some k, op⟩
    running := none }

/-- The fault of a host transaction (60_exceptions R337): `DONE` and `BUSY` stay, `op` reads 0. -/
def hostFault (k : Kind) (s : State) : State :=
  { s with status := { s.status with errf := true }, err := ⟨some k, 0⟩ }

/-- The return from a fault (60_exceptions R342, 47_sys R323). -/
def clearFault (s : State) : State :=
  { s with status := { s.status with errf := false }, err := ⟨none, 0⟩ }

/-- Completion (30_encoding R99, R101): `DONE <- 1`, `BUSY <- 0`. -/
def finish (s : State) : State :=
  { s with status := { s.status with done := true, busy := false }, running := none }

/-- One test of a command: what must hold, and the kind raised when it does not. -/
structure Check where
  ok : Bool
  kind : Kind
deriving DecidableEq, Repr

/-- The first fault that applies, in the order of the list (60_exceptions R338). -/
def firstFault : List Check → Option Kind
  | [] => none
  | c :: rest => if c.ok then firstFault rest else some c.kind

/-- A command (30_encoding R99, R100): its tests in order; when one fails the fault is taken in the
state before the command, else the writes, computed from the state before the command, are applied. -/
def command (op : Nat) (checks : List Check) (writes : State → State) (s : State) :
    Host.Outcome State Fault Refusal :=
  match firstFault checks with
  | some k => .next (takeFault k op s)
  | none => .next (finish (writes s))

end Sys2Proof.Machine
end

