-- ==== Sys2Proof/Machine/BinaryField.lean ====
section
/-! DEFINITION. Arithmetic of GF(2^m) (44_fb): a polynomial is the integer whose bit i is the
coefficient of z^i (00_scope R19); `f` is the reduction polynomial of degree `m`. -/

namespace Sys2Proof.Machine

/-- The shift-and-add loop of `pmul`. -/
def pmulLoop : Nat → Nat → Nat → Nat → Nat
  | 0, _, _, acc => acc
  | k + 1, a, b, acc => pmulLoop k (2 * a) (b / 2) (if b % 2 = 1 then acc ^^^ a else acc)

/-- `pmul(a, b)`: the carry-less product (44_fb R203). -/
def pmul (a b : Nat) : Nat := pmulLoop (bitlen b) a b 0

/-- The loop of `pmod`: cancel the top term while the degree is at least m (44_fb R201). -/
def pmodLoop (m f : Nat) : Nat → Nat → Nat
  | 0, c => c
  | k + 1, c =>
    if bitlen c ≤ m then c else pmodLoop m f k (c ^^^ f * 2 ^ (bitlen c - 1 - m))

/-- `pmod(c)` (44_fb R201). -/
def pmod (m f c : Nat) : Nat := pmodLoop m f (bitlen c) c

/-- The product in the field (44_fb R203). -/
def fbMulP (m f a b : Nat) : Nat := pmod m f (pmul a b)

/-- The square in the field (44_fb R204). -/
def fbSqrP (m f a : Nat) : Nat := fbMulP m f a a

/-- k successive squarings, a^(2^k). -/
def fbSqrTimes (m f : Nat) : Nat → Nat → Nat
  | 0, a => a
  | k + 1, a => fbSqrTimes m f k (fbSqrP m f a)

/-- The square root a^(2^(m−1)) (44_fb R207). -/
def fbSqrtP (m f a : Nat) : Nat := fbSqrTimes m f (m - 1) a

/-- The sum a + a² + a⁴ + … of `k` terms. -/
def fbTraceLoop (m f : Nat) : Nat → Nat → Nat → Nat
  | 0, _, acc => acc
  | k + 1, a, acc => fbTraceLoop m f k (fbSqrP m f a) (acc ^^^ a)

/-- Tr(a), the polynomial 0 or 1 (44_fb R208). -/
def fbTraceP (m f a : Nat) : Nat := fbTraceLoop m f m a 0

/-- The sum c + c⁴ + c¹⁶ + … of `k` terms. -/
def fbHalfTraceLoop (m f : Nat) : Nat → Nat → Nat → Nat
  | 0, _, acc => acc
  | k + 1, c, acc => fbHalfTraceLoop m f k (fbSqrP m f (fbSqrP m f c)) (acc ^^^ c)

/-- The half-trace H(c) for odd m (44_fb R209). -/
def fbHalfTraceP (m f c : Nat) : Nat := fbHalfTraceLoop m f ((m - 1) / 2 + 1) c 0

/-! Values with the equation that an irreducible f gives them; none where it fails, that is, where f is
reducible (70_reset R368, 93 U10, log 10). -/

/-- The square root, with √a·√a = a (44_fb R207). -/
def fbRoot (m f a : Nat) : Option Nat := some (fbSqrtP m f a) |>.filter fun r => fbSqrP m f r == a

/-- The trace as a bit (44_fb R208). -/
def fbTraceBit (m f a : Nat) : Option Bool :=
  match fbTraceP m f a with
  | 0 => some false
  | 1 => some true
  | _ => none

/-- The half-trace, with H(c)² + H(c) = c + Tr(c) (44_fb R209). -/
def fbSolve (m f c : Nat) : Option Nat :=
  some (fbHalfTraceP m f c) |>.filter fun h =>
    decide (fbTraceP m f c ≤ 1) && fbSqrP m f h ^^^ h == c ^^^ fbTraceP m f c

/-! Inversion (44_fb R211 to R217). A loop that reaches its bound (70_reset R368, R380) answers none. -/

/-- The loop of the extended Euclidean algorithm (44_fb R215). -/
def exgcdLoop : Nat → Nat → Nat → Nat → Nat → Option Nat
  | 0, _, _, _, _ => none
  | k + 1, u, v, g1, g2 =>
    if u = 1 then some g1
    else if u = 0 ∨ v = 0 then none
    else if bitlen u < bitlen v then
      let j := bitlen v - bitlen u
      exgcdLoop k (v ^^^ u * 2 ^ j) u (g2 ^^^ g1 * 2 ^ j) g1
    else
      let j := bitlen u - bitlen v
      exgcdLoop k (u ^^^ v * 2 ^ j) v (g1 ^^^ g2 * 2 ^ j) g2

/-- `FB.INV.EXGCD` (44_fb R215). -/
def invExgcd (m f a : Nat) : Option Nat := exgcdLoop (2 * m + 2) a f 1 0

/-- "while u is even": divide u by z and g by z modulo f (44_fb R213). -/
def binarShift (f : Nat) : Nat → Nat → Nat → Nat × Nat
  | 0, u, g => (u, g)
  | k + 1, u, g =>
    if u = 0 ∨ u % 2 = 1 then (u, g)
    else binarShift f k (u / 2) (if g % 2 = 0 then g / 2 else (g ^^^ f) / 2)

/-- The loop of the binary algorithm (44_fb R213). -/
def binarLoop (m f : Nat) : Nat → Nat → Nat → Nat → Nat → Option Nat
  | 0, _, _, _, _ => none
  | k + 1, u, v, g1, g2 =>
    if u = 1 then some g1
    else if v = 1 then some g2
    else if u = 0 ∨ v = 0 then none
    else
      let (u, g1) := binarShift f (m + 1) u g1
      let (v, g2) := binarShift f (m + 1) v g2
      if bitlen u > bitlen v then binarLoop m f k (u ^^^ v) v (g1 ^^^ g2) g2
      else binarLoop m f k u (v ^^^ u) g1 (g2 ^^^ g1)

/-- `FB.INV.BINAR` (44_fb R213). -/
def invBinar (m f a : Nat) : Option Nat := binarLoop m f (2 * m + 2) a f 1 0

/-- "while u is even": u/z, d·z, k + 1 (44_fb R214). -/
def almosShift : Nat → Nat → Nat → Nat → Nat × Nat × Nat
  | 0, u, d, k => (u, d, k)
  | n + 1, u, d, k =>
    if u = 0 ∨ u % 2 = 1 then (u, d, k) else almosShift n (u / 2) (d * 2) (k + 1)

/-- Divide b by z^k modulo f (44_fb R214, the correction "outside"). -/
def divideZ (f : Nat) : Nat → Nat → Nat
  | 0, b => b
  | k + 1, b => divideZ f k ((if b % 2 = 1 then b ^^^ f else b) / 2)

/-- The loop of the almost inverse (44_fb R214): the b with b·a ≡ z^k, and k. -/
def almosLoop (m : Nat) : Nat → Nat → Nat → Nat → Nat → Nat → Option (Nat × Nat)
  | 0, _, _, _, _, _ => none
  | n + 1, b, d, u, v, k =>
    let (u, d, k) := almosShift (m + 1) u d k
    if u = 1 then some (b, k)
    else if u = 0 then none
    else if bitlen u < bitlen v then almosLoop m n (d ^^^ b) b (v ^^^ u) u k
    else almosLoop m n (b ^^^ d) d (u ^^^ v) v k

/-- `FB.INV.ALMOS` (44_fb R214). -/
def invAlmos (m f a : Nat) : Option Nat :=
  (almosLoop m (2 * m + 2) 1 0 a f 0).map fun (b, k) => divideZ f k b

/-- The loop of 44_fb R212. -/
def basicLoop (m f : Nat) : Nat → Nat → Nat → Nat → Nat
  | 0, _, v, _ => v
  | k + 1, u, v, x =>
    if x = 0 then v
    else
      let u := fbMulP m f u (fbSqrTimes m f x u)
      if x % 2 = 0 then basicLoop m f k u v (x / 2)
      else basicLoop m f k (fbSqrP m f u) (fbMulP m f v u) ((x - 1) / 2)

/-- `FB.INV.BASIC` for odd m (44_fb R212). -/
def invBasic (m f a : Nat) : Nat :=
  basicLoop m f (bitlen m) (fbSqrP m f a) 1 ((m - 1) / 2)

/-- The chain loop of 44_fb R216: the tables `table[0..i]` and `u[0..i]`. -/
def itohtLoop (m f : Nat) : List (Nat × Nat) → List Nat → List Nat → List Nat
  | [], table, _ => table
  | (x, y) :: rest, table, us =>
    itohtLoop m f rest
      (table ++ [fbMulP m f (fbSqrTimes m f (us.getD y 0) (table.getD x 0)) (table.getD y 0)])
      (us ++ [us.getD x 0 + us.getD y 0])

/-- `FB.INV.ITOHT` with the chain of the build (44_fb R216). -/
def invItoht (m f : Nat) (chain : List (Nat × Nat)) (a : Nat) : Nat :=
  fbSqrP m f ((itohtLoop m f chain [a] [1]).getLastD 0)

/-- Inversion of a ≠ 0 by variant `v` (44_fb R211); `lower` may run any algorithm (R217). The result is
reduced, which changes nothing in a context of 70_reset R368; none where it is no inverse, which only a
reducible f allows (R368, log 10). -/
def invBy (v : FbInv) (chain : List (Nat × Nat)) (m f a : Nat) : Option Nat :=
  (match v with
    | .basic => some (invBasic m f a)
    | .binar => invBinar m f a
    | .almos => invAlmos m f a
    | .exgcd => invExgcd m f a
    | .itoht => some (invItoht m f chain a)
    | .lower => invExgcd m f a).map (pmod m f) |>.filter fun x => fbMulP m f a x == 1

/-- The inverse as other commands use it. -/
def fbInvP (m f a : Nat) : Option Nat := invBy .exgcd [] m f a

/-! Simultaneous inversion (44_fb R218). -/

/-- The partial products c[0..n−1]. -/
def simProducts (m f : Nat) : List Nat → Nat → List Nat
  | [], _ => []
  | a :: rest, c => fbMulP m f c a :: simProducts m f rest (fbMulP m f c a)

/-- "walk back": from t = 1/c[i], the pairs (a[i], c[i−1]) taken from the last down. -/
def simBack (m f : Nat) : List (Nat × Nat) → Nat → List Nat
  | [], t => [t]
  | (a, c) :: rest, t => simBack m f rest (fbMulP m f t a) ++ [fbMulP m f t c]

/-- `r[i] = 1/a[i]` from t = 1/c[n−1], with one inversion (44_fb R218). -/
def simInverses (m f : Nat) (as : List Nat) (t : Nat) : List Nat :=
  simBack m f ((as.tail.zip (simProducts m f as 1).dropLast).reverse) t

end Sys2Proof.Machine
end

