-- ==== Sys2Proof/Machine/Recode.lean ====
section
/-! DEFINITION. The scalar recodings of 42_rec as functions from integers to digit lists, position 0
first. Each loop carries as fuel the bound on its length that 70_reset R380 allows. -/

namespace Sys2Proof.Machine

/-- "k mod 2^w signed to lie in (−2^(w−1), 2^(w−1)]" (42_rec R143). -/
def signedResidue (w : Nat) (k : Int) : Int :=
  let t := k % 2 ^ w
  if t > 2 ^ (w - 1) then t - 2 ^ w else t

/-- The loop of 42_rec R143. -/
def nafLoop (w : Nat) : Nat → Int → List Int
  | 0, _ => []
  | fuel + 1, k =>
    if k = 0 then []
    else if k % 2 = 1 then
      signedResidue w k :: nafLoop w fuel ((k - signedResidue w k) / 2)
    else 0 :: nafLoop w fuel (k / 2)

/-- The width-w non-adjacent form of k (42_rec R143); at most bitlen(k) + 1 digits. -/
def naf (w k : Nat) : List Int := nafLoop w (bitlen k + 1) k

/-- `digit(a, b)` of 42_rec R145. -/
def jsfDigit (a b : Nat) : Int :=
  if a % 2 = 0 then 0
  else
    let t : Int := 2 - ((a % 4 : Nat) : Int)
    if (a % 8 = 3 ∨ a % 8 = 5) ∧ b % 4 = 2 then -t else t

/-- `if 2·c = 1 + u then c <- 1 − c` (42_rec R145). -/
def jsfCarry (c : Nat) (u : Int) : Nat := if 2 * (c : Int) = 1 + u then 1 - c else c

/-- The loop of 42_rec R145; a pair (uᵢ, vᵢ) for each position. -/
def jsfLoop : Nat → Nat → Nat → Nat → Nat → List (Int × Int)
  | 0, _, _, _, _ => []
  | fuel + 1, k0, k1, c0, c1 =>
    if k0 + c0 > 0 ∨ k1 + c1 > 0 then
      let u := jsfDigit (c0 + k0) (c1 + k1)
      let v := jsfDigit (c1 + k1) (c0 + k0)
      (u, v) :: jsfLoop fuel (k0 / 2) (k1 / 2) (jsfCarry c0 u) (jsfCarry c1 v)
    else []

/-- The joint sparse form of (k, l) (42_rec R145); at most max(bitlen(k), bitlen(l)) + 1 columns. -/
def jsf (k l : Nat) : List (Int × Int) := jsfLoop (max (bitlen k) (bitlen l) + 1) k l 0 0

/-- The unsigned fixed-radix window recoding (42_rec R150). -/
def win (w k : Nat) : List Nat :=
  (List.range ((bitlen k + w - 1) / w)).map fun i => k / 2 ^ (w * i) % 2 ^ w

/-- Σ dᵢ·2ⁱ of a signed-binary expansion (42_rec R144, R146). -/
def binaryValue : List Int → Int
  | [] => 0
  | d :: ds => d + 2 * binaryValue ds

/-- In any `w` consecutive positions at most one digit is non-zero (42_rec R144, R148). -/
def nonAdjacent (w : Nat) : List Int → Bool
  | [] => true
  | d :: ds => (d == 0 || (ds.take (w - 1)).all (fun e => e == 0)) && nonAdjacent w ds

/-- 0, or an odd integer with |d| ≤ 2^(w−1) − 1 (42_rec R144, R148). -/
def windowDigit (w : Nat) (d : Int) : Bool :=
  d == 0 || (d % 2 == 1 && decide (d.natAbs ≤ 2 ^ (w - 1) - 1))

end Sys2Proof.Machine
end

