-- ==== Sys2Proof/Machine/Curve.lean ====
section
/-! DEFINITION. Scalar multiplication over any group of points: the loops of 45_ep R257 to R260 and R264
to R267 and of 46_eb R303, R304, written once over the operations of a group. The prime and the
binary curve give their own operations. -/

namespace Sys2Proof.Machine

/-- An abstract point (45_ep R240, 46_eb R280): infinity or an affine pair; or no point, where the group law
needs an inverse that does not exist, which only a false context allows (70_reset R368, 93 U10, log
10). -/
inductive Pt where
  | inf
  | aff (x y : Nat)
  | unknown
deriving DecidableEq, Repr

/-- The operations a multiplication loop uses. -/
structure PtOps (α : Type) where
  zero : α
  neg : α → α
  add : α → α → α
  dbl : α → α

section loops

variable {α : Type}

/-- "reads bits of k from MSB−1 downto 0; doubles, conditionally adds P" (45_ep R257): the bits of k
below position `t`, from the top. -/
def mulBits (o : PtOps α) (P : α) (k : Nat) : Nat → α → α
  | 0, R => R
  | t + 1, R =>
    mulBits o P k t (if k / 2 ^ t % 2 = 1 then o.add (o.dbl R) P else o.dbl R)

/-- `[k]P` for k ≥ 0 by double-and-add (45_ep R240, R257). -/
def mulBasic (o : PtOps α) (k : Nat) (P : α) : α :=
  if k = 0 then o.zero else mulBits o P k (bitlen k - 1) P

/-- A method for k ≥ 0 extended to any integer: `[k]P = [|k|](−P)` for k < 0 (45_ep R256). -/
def mulSigned (o : PtOps α) (mul : Nat → α → α) (k : Int) (P : α) : α :=
  if k < 0 then mul k.natAbs (o.neg P) else mul k.natAbs P

/-- The table entries from `T` on, each the one before plus D (45_ep R260). -/
def tableFrom (o : PtOps α) (D : α) : Nat → α → List α
  | 0, _ => []
  | n + 1, T => T :: tableFrom o D n (o.add T D)

/-- `table(P, w)`: entry i is [2i + 1]P for i < 2^(w−2) (45_ep R260). -/
def oddTable (o : PtOps α) (w : Nat) (P : α) : List α := tableFrom o (o.dbl P) (2 ^ (w - 2)) P

/-- Add `sign(d)·T[(|d| − 1)/2]` for a digit d ≠ 0; nothing for 0 (45_ep R258). -/
def addDigit (o : PtOps α) (T : List α) (d : Int) (R : α) : α :=
  if d > 0 then o.add R (T.getD ((d.natAbs - 1) / 2) o.zero)
  else if d < 0 then o.add R (o.neg (T.getD ((d.natAbs - 1) / 2) o.zero))
  else R

/-- Left to right over the digits, the last digit first: `R <- [2]R`, then the digit (45_ep R258). -/
def leftToRight (o : PtOps α) (T : List α) : List Int → α
  | [] => o.zero
  | d :: ds => addDigit o T d (o.dbl (leftToRight o T ds))

/-- Left-to-right windowed NAF (45_ep R258). -/
def mulLwnaf (o : PtOps α) (w k : Nat) (P : α) : α := leftToRight o (oddTable o w P) (naf w k)

/-- Add ±Q to slot (|d| − 1)/2 (45_ep R259). -/
def addSlot (o : PtOps α) (S : List α) (d : Int) (Q : α) : List α :=
  let j := (d.natAbs - 1) / 2
  if d > 0 then S.set j (o.add (S.getD j o.zero) Q)
  else if d < 0 then S.set j (o.add (S.getD j o.zero) (o.neg Q))
  else S

/-- The main loop of 45_ep R259: the slots. -/
def rightToLeft (o : PtOps α) : List Int → List α → α → List α
  | [], S, _ => S
  | d :: ds, S, Q => rightToLeft o ds (addSlot o S d Q) (o.dbl Q)

/-- Σ_j [2j + 1] S[j], from slot j on (45_ep R259). -/
def combineSlots (o : PtOps α) : List α → Nat → α
  | [], _ => o.zero
  | s :: S, j => o.add (mulBasic o (2 * j + 1) s) (combineSlots o S (j + 1))

/-- Right-to-left windowed NAF (45_ep R259). -/
def mulRwnaf (o : PtOps α) (w k : Nat) (P : α) : α :=
  combineSlots o (rightToLeft o (naf w k) (List.replicate (2 ^ (w - 2)) o.zero) P) 0

/-- `P` for k ≥ 0, −P for k < 0: "each sign handled on its own point" (45_ep R263). -/
def signPoint (o : PtOps α) (k : Int) (P : α) : α := if k < 0 then o.neg P else P

/-- w doublings. -/
def dblTimes (o : PtOps α) : Nat → α → α
  | 0, R => R
  | n + 1, R => dblTimes o n (o.dbl R)

/-- Entry (i, j) of the trick table: [i]P + [j]Q (45_ep R265). -/
def trickEntry (o : PtOps α) (P Q : α) (i j : Nat) : α := o.add (mulBasic o i P) (mulBasic o j Q)

/-- The loop of 45_ep R265 over the columns, the last column first. -/
def trickLoop (o : PtOps α) (w : Nat) (P Q : α) : List (Nat × Nat) → α
  | [] => o.zero
  | (i, j) :: rest =>
    o.add (dblTimes o w (trickLoop o w P Q rest)) (trickEntry o P Q i j)

/-- Two digit lists side by side, the shorter padded with zeros (45_ep R265, R266). -/
def columns {β : Type} (z : β) : List β → List β → List (β × β)
  | [], bs => bs.map fun b => (z, b)
  | a :: as, bs => (a, bs.headD z) :: columns z as bs.tail

/-- The trick (Shamir) method for k, l ≥ 0 (45_ep R265). -/
def simTrick (o : PtOps α) (w : Nat) (k : Nat) (P : α) (l : Nat) (Q : α) : α :=
  trickLoop o w P Q (columns 0 (win w k) (win w l))

/-- The loop of 45_ep R266, the last column first. -/
def interLoop (o : PtOps α) (TP TQ : List α) : List (Int × Int) → α
  | [] => o.zero
  | (d, e) :: rest => addDigit o TQ e (addDigit o TP d (o.dbl (interLoop o TP TQ rest)))

/-- Interleaving for k, l ≥ 0 (45_ep R266). -/
def simInter (o : PtOps α) (w : Nat) (k : Nat) (P : α) (l : Nat) (Q : α) : α :=
  interLoop o (oddTable o w P) (oddTable o w Q) (columns 0 (naf w k) (naf w l))

/-- Add [u]P + [v]Q from the 5-entry table {O, Q, P, P + Q, P − Q} (45_ep R267). -/
def addTrit (o : PtOps α) (P Q : α) (c : Int × Int) (R : α) : α :=
  match c with
  | (0, 1) => o.add R Q
  | (0, -1) => o.add R (o.neg Q)
  | (1, 0) => o.add R P
  | (-1, 0) => o.add R (o.neg P)
  | (1, 1) => o.add R (o.add P Q)
  | (-1, -1) => o.add R (o.neg (o.add P Q))
  | (1, -1) => o.add R (o.add P (o.neg Q))
  | (-1, 1) => o.add R (o.neg (o.add P (o.neg Q)))
  | _ => R

/-- The loop of 45_ep R267, the last column first. -/
def jointLoop (o : PtOps α) (P Q : α) : List (Int × Int) → α
  | [] => o.zero
  | c :: rest => addTrit o P Q c (o.dbl (jointLoop o P Q rest))

/-- The joint method for k, l ≥ 0 (45_ep R267). -/
def simJoint (o : PtOps α) (k : Nat) (P : α) (l : Nat) (Q : α) : α := jointLoop o P Q (jsf k l)

/-- A two-scalar method for k, l ≥ 0 extended to all integers (45_ep R263, R265). -/
def simSigned (o : PtOps α) (sim : Nat → α → Nat → α → α) (k : Int) (P : α) (l : Int) (Q : α) : α :=
  sim k.natAbs (signPoint o k P) l.natAbs (signPoint o l Q)

/-- The loop of 46_eb R303 over d[0..t−1]: halve, then the digit. -/
def halveLoop (o : PtOps α) (half : α → α) (P : α) : List Int → α → α
  | [], Q => Q
  | d :: ds, Q =>
    let Q := half Q
    halveLoop o half P ds (if d = 1 then o.add Q P else if d = -1 then o.add Q (o.neg P) else Q)

/-- Multiplication by halving (46_eb R303) for a point of odd order: `half` is point halving. -/
def mulHalve (o : PtOps α) (half : α → α) (n : Nat) (k : Int) (P : α) : α :=
  let t := bitlen n
  let ds := naf 2 ((2 ^ (t - 1) * k) % (n : Int)).toNat
  let Q := halveLoop o half P ((ds ++ List.replicate (t - ds.length) 0).take t) o.zero
  if ds.getD t 0 = 0 then Q else o.add Q (mulSigned o (mulBasic o) (2 * ds.getD t 0) P)

/-- Σ d[i]·φⁱ(P) (42_rec R148). -/
def tauSum (o : PtOps α) (phi : α → α) : List Int → α → α
  | [], _ => o.zero
  | d :: ds, P => o.add (mulSigned o (mulBasic o) d P) (tauSum o phi ds (phi P))

end loops

end Sys2Proof.Machine
end

