-- ==== Sys2Proof/Machine/BinaryCurve.lean ====
section
/-! DEFINITION. The binary curve y² + xy = x³ + ax² + b over GF(2^m): its group law (46_eb R280), what a
register stands for (R282, R283), the Frobenius map (R288), halving (R289) and its multiplications
(R298 to R313). -/

namespace Sys2Proof.Machine

/-- `−P` (46_eb R280). -/
def ebNegPt : Pt → Pt
  | .inf => .inf
  | .aff x y => .aff x (x ^^^ y)
  | .unknown => .unknown

/-- `[2]P`; infinity when x = 0 (46_eb R280, R285). -/
def ebDblPt (m f a : Nat) : Pt → Pt
  | .inf => .inf
  | .aff x y =>
    if x = 0 then .inf
    else
      match fbInvP m f x with
      | some xi =>
        let lam := x ^^^ fbMulP m f y xi
        let x3 := fbSqrP m f lam ^^^ lam ^^^ a
        .aff x3 (fbSqrP m f x ^^^ fbMulP m f (lam ^^^ 1) x3)
      | none => .unknown
  | .unknown => .unknown

/-- `P + Q` (46_eb R280, R286). -/
def ebAddPt (m f a : Nat) : Pt → Pt → Pt
  | .inf, Q => Q
  | P, .inf => P
  | .aff x1 y1, .aff x2 y2 =>
    if x1 = x2 then
      if y1 = y2 then ebDblPt m f a (.aff x1 y1) else .inf
    else
      match fbInvP m f (x1 ^^^ x2) with
      | some di =>
        let lam := fbMulP m f (y1 ^^^ y2) di
        let x3 := fbSqrP m f lam ^^^ lam ^^^ x1 ^^^ x2 ^^^ a
        .aff x3 (fbMulP m f lam (x1 ^^^ x3) ^^^ x3 ^^^ y1)
      | none => .unknown
  | _, _ => .unknown

/-- The group operations of the binary curve. -/
def ebOps (m f a : Nat) : PtOps Pt where
  zero := .inf
  neg := ebNegPt
  add := ebAddPt m f a
  dbl := ebDblPt m f a

/-- The projective curve equation Y² + XYZ = X³Z + aX²Z² + bZ⁴ (46_eb R281). -/
def ebOnCurve (m f a b X Y Z : Nat) : Bool :=
  let mul := fbMulP m f
  let X2 := mul X X
  let Z2 := mul Z Z
  mul Y Y ^^^ mul (mul X Y) Z == mul (mul X2 X) Z ^^^ mul a (mul X2 Z2) ^^^ mul b (mul Z2 Z2)

/-- `pt(E)`: (X/Z, Y/Z²), infinity for Z = 0 (46_eb R282). -/
def ebPoint (m f : Nat) (e : PointReg) : Pt :=
  if e.z = 0 then .inf
  else
    match fbInvP m f e.z with
    | some zi => .aff (fbMulP m f e.x zi) (fbMulP m f e.y (fbSqrP m f zi))
    | none => .unknown

/-- The normalised register value of a point, canonical infinity for O (46_eb R283, R298); none where there
is no point. -/
def ebNormal : Pt → Option PointReg
  | .inf => some PointReg.infinity
  | .aff x y => some ⟨x, y, 1, true⟩
  | .unknown => none

/-- The representative of a point with Z = λ: (λx, λ²y, λ); `norm` may be set when λ = 1 (46_eb R282,
R283). -/
def ebRepresentative (m f lam : Nat) (marked : Bool) : Pt → Option PointReg
  | .inf => some PointReg.infinity
  | .aff x y =>
    if lam = 1 ∧ marked then some ⟨x, y, 1, true⟩
    else some ⟨fbMulP m f lam x, fbMulP m f (fbSqrP m f lam) y, lam, false⟩
  | .unknown => none

/-- φ(x, y) = (x², y²) (46_eb R288). -/
def ebFrobenius (m f : Nat) : Pt → Pt
  | .inf => .inf
  | .aff x y => .aff (fbSqrP m f x) (fbSqrP m f y)
  | .unknown => .unknown

/-! Halving (46_eb R289): the half of a point of odd order r is [(r + 1)/2]P. -/

/-- The odd part of a number. -/
def oddPart : Nat → Nat → Nat
  | 0, e => e
  | fuel + 1, e => if e ≠ 0 ∧ e % 2 = 0 then oddPart fuel (e / 2) else e

/-- The least odd r, from `r` on, with [r]P = O. -/
def oddOrderFrom (o : PtOps Pt) (P : Pt) : Nat → Nat → Option Nat
  | 0, _ => none
  | fuel + 1, r => if mulBasic o r P = .inf then some r else oddOrderFrom o P fuel (r + 2)

/-- An odd number that kills P, if P has one, that is, if P has odd order. `es` are numbers that may kill P
(n and n·h); the first that does decides the question at once. Otherwise the odd numbers up to 2^(m+2),
which is above the order of any point, are tried. -/
def oddExponent (o : PtOps Pt) (m : Nat) (es : List Nat) (P : Pt) : Option Nat :=
  match es.find? fun e => e != 0 && mulBasic o e P == .inf with
  | some e => if mulBasic o (oddPart e e) P = .inf then some (oddPart e e) else none
  | none => if P = .unknown then none else oddOrderFrom o P (2 ^ (m + 1)) 1

/-- The half of Q in the subgroup it generates, where the odd r kills Q (46_eb R289). -/
def halfBy (o : PtOps Pt) (r : Nat) (Q : Pt) : Pt := mulBasic o ((r + 1) / 2) Q

/-! The López-Dahab ladder (46_eb R302). -/

/-- `madd` of 46_eb R302, x the affine abscissa of P. -/
def ladderAdd (m f x : Nat) (A B : Nat × Nat) : Nat × Nat :=
  let t1 := fbMulP m f A.1 B.2
  let t2 := fbMulP m f B.1 A.2
  let Z := fbSqrP m f (t1 ^^^ t2)
  (fbMulP m f x Z ^^^ fbMulP m f t1 t2, Z)

/-- `mdbl` of 46_eb R302. -/
def ladderDbl (m f b : Nat) (A : Nat × Nat) : Nat × Nat :=
  let X2 := fbSqrP m f A.1
  let Z2 := fbSqrP m f A.2
  (fbSqrP m f X2 ^^^ fbMulP m f b (fbSqrP m f Z2), fbMulP m f X2 Z2)

/-- The ladder over the bits of k below position `t`, from the top (46_eb R302). -/
def ladderLoop (m f b x k : Nat) : Nat → (Nat × Nat) → (Nat × Nat) → (Nat × Nat) × (Nat × Nat)
  | 0, A, B => (A, B)
  | t + 1, A, B =>
    if k / 2 ^ t % 2 = 1 then ladderLoop m f b x k t (ladderAdd m f x A B) (ladderDbl m f b B)
    else ladderLoop m f b x k t (ladderDbl m f b A) (ladderAdd m f x A B)

/-- The end of the ladder: the two exceptional cases, and the recovery of y (46_eb R302). -/
def ladderEnd (m f x y : Nat) (A B : Nat × Nat) : Pt :=
  if A.2 = 0 then .inf
  else if B.2 = 0 then ebNegPt (.aff x y)
  else
    match fbInvP m f A.2, fbInvP m f B.2, fbInvP m f x with
    | some z1, some z2, some xi =>
      let x1 := fbMulP m f A.1 z1
      let x2 := fbMulP m f B.1 z2
      let s := fbMulP m f (x1 ^^^ x) (x2 ^^^ x) ^^^ fbSqrP m f x ^^^ y
      .aff x1 (fbMulP m f (fbMulP m f (x1 ^^^ x) s) xi ^^^ y)
    | _, _, _ => .unknown

/-- `EB.MUL.LODAH`: the ladder for k > 0 and x ≠ 0; the cases it cannot start from are settled by the
double-and-add of 46_eb R298 (R302). -/
def mulLodah (m f a b : Nat) (k : Int) : Pt → Pt
  | .inf => .inf
  | .aff x y =>
    if k ≤ 0 ∨ x = 0 then mulSigned (ebOps m f a) (mulBasic (ebOps m f a)) k (.aff x y)
    else
      let x2 := fbSqrP m f x
      let (A, B) := ladderLoop m f b x k.natAbs (bitlen k.natAbs - 1) (x, 1) (fbSqrP m f x2 ^^^ b, x2)
      ladderEnd m f x y A B
  | .unknown => .unknown

end Sys2Proof.Machine
end

