-- ==== Sys2Proof/Machine/Flags.lean ====
section
/-! DEFINITION. Flag results and the 32-bit views of `FLAGS`, `STATUS` and `ERR` (10_state R40 to
R42). -/

namespace Sys2Proof.Machine

/-- The result of comparing two unsigned integers (40_dv R113, 43_fp R175, 44_fb R210). -/
def compareNat (a b : Nat) : CmpResult :=
  if a = b then .equal else if a < b then .less else .greater

/-- The two bits of `FLAGS.CMP` (10_state R40). -/
def CmpResult.code : CmpResult → Nat
  | .equal => 0
  | .less => 1
  | .greater => 2

/-- `FLAGS.CMP <- v`. -/
def State.setCmp (s : State) (v : CmpResult) : State := { s with flags := { s.flags with cmp := v } }

/-- `FLAGS.T <- v`. -/
def State.setT (s : State) (v : Bool) : State := { s with flags := { s.flags with t := v } }

/-- `FLAGS` as the host reads it: `CMP` in bits [1:0], `T` in bit 2 (10_state R40). -/
def Flags.word (f : Flags) : Nat := f.cmp.code + 4 * f.t.toNat

/-- `STATUS` as the host reads it (10_state R41). -/
def Status.word (t : Status) : Nat :=
  t.busy.toNat + 2 * t.done.toNat + 4 * t.errf.toNat + 8 * t.init.toNat

/-- `ERR` as the host reads it: kind in bits [2:0], op in bits [15:8] (10_state R42). -/
def ErrReg.word (e : ErrReg) : Nat :=
  (match e.kind with | some k => k.code | none => 0) + 256 * (e.op % 256)

end Sys2Proof.Machine
end

