-- ==== Sys2Proof/Machine/PrimeField.lean ====
section
/-! DEFINITION. Arithmetic of GF(p) (43_fp): residues, the Comba multiplier (R162), Montgomery reduction
(R163), sparse reduction (R164), inversion (R172), exponentiation (R173), square root (R174). -/

namespace Sys2Proof.Machine

/-! Residues. -/

/-- Square-and-multiply on the bits of `e`, from the least significant. -/
def powModLoop (p : Nat) : Nat → Nat → Nat → Nat → Nat
  | 0, _, _, acc => acc
  | fuel + 1, b, e, acc =>
    powModLoop p fuel (b * b % p) (e / 2) (if e % 2 = 1 then acc * b % p else acc)

/-- `b^e mod p`, with `b^0 = 1` (43_fp R173). -/
def powMod (p b e : Nat) : Nat := powModLoop p (bitlen e) (b % p) e (1 % p)

/-- The inverse of `a` modulo the prime p as a^(p−2), one of the two ways 43_fp R172 names; none where that
power is no inverse, which no prime p allows for a ≠ 0 (70_reset R368, log 10). -/
def invMod (p a : Nat) : Option Nat :=
  let x := powMod p a (p - 2)
  if a * x % p = 1 % p then some x else none

/-- `s <- a + b; if s ≥ p then s − p` (43_fp R165). -/
def addMod (p a b : Nat) : Nat := if a + b ≥ p then a + b - p else a + b

/-- `s <- a − b; if s < 0 then s + p` (43_fp R166). -/
def subMod (p a b : Nat) : Nat := if a < b then a + p - b else a - b

/-- 0 for 0, else p − a (43_fp R167). -/
def negMod (p a : Nat) : Nat := if a = 0 then 0 else p - a

/-- Modular halving (43_fp R169). -/
def halveMod (p a : Nat) : Nat := if a % 2 = 0 then a / 2 else (a + p) / 2

/-- `R = 2^(FP_DIGS·W)` (00_scope R9). -/
def bigR (b : Build) : Nat := 2 ^ (b.W * b.fpDigs)

/-- R⁻¹ mod p for odd p: the (FP_DIGS·W)-th power of (p + 1)/2, the inverse of 2. -/
def rInv (b : Build) (p : Nat) : Nat := powMod p ((p + 1) / 2) (b.W * b.fpDigs)

/-- The residue that a register value stands for (00_scope R25). -/
def valFp (b : Build) (p e : Nat) : Nat :=
  match b.fpRdc with
  | .monty => e * rInv b p % p
  | .sparse => e

/-- The register value of a residue (00_scope R25). -/
def repFp (b : Build) (p v : Nat) : Nat :=
  match b.fpRdc with
  | .monty => v * bigR b % p
  | .sparse => v

/-! The datapath. `ACC` is 3·W bits wide (10_state R57). -/

/-- `ACC <- ACC + t` in 3·W bits. -/
def accAdd (W acc t : Nat) : Nat := (acc + t) % 2 ^ (3 * W)

/-- Column i of the Comba multiplier: the products a[j]·b[i−j] (43_fp R162). -/
def combaColumn (W n a b i acc : Nat) : Nat :=
  (List.range' (i + 1 - n) (min (i + 1) n - (i + 1 - n))).foldl
    (fun acc j => accAdd W acc (digit W a j * digit W b (i - j))) acc

/-- The columns from i on: each writes its low digit and shifts `ACC` by one digit (43_fp R162). -/
def combaLoop (W n a b : Nat) : Nat → Nat → Nat → Nat
  | 0, _, acc => acc % 2 ^ W
  | k + 1, i, acc =>
    let acc := combaColumn W n a b i acc
    acc % 2 ^ W + 2 ^ W * combaLoop W n a b k (i + 1) (acc / 2 ^ W)

/-- `comba_mul(a, b)`: the 2n-digit product of two n-digit vectors (43_fp R162). -/
def comba (W n a b : Nat) : Nat := combaLoop W n a b (2 * n - 1) 0 0

/-- The products c[j]·m[i−j] for `count` values of j from `lo` (43_fp R163). -/
def rdcnColumn (W m i lo count : Nat) (c : List Nat) (acc : Nat) : Nat :=
  (List.range' lo count).foldl
    (fun acc j => accAdd W acc (c.getD j 0 * digit W m (i - j))) acc

/-- The first loop of 43_fp R163: the quotient digits q₀ … q_{n−1}, and `ACC` after column n − 1. -/
def rdcnQuotients (W m u a : Nat) : Nat → Nat → List Nat → Nat → List Nat × Nat
  | 0, _, c, acc => (c, acc)
  | k + 1, i, c, acc =>
    let acc := accAdd W (rdcnColumn W m i 0 i c acc) (digit W a i)
    let q := acc % 2 ^ W * u % 2 ^ W
    let acc := accAdd W acc (q * digit W m 0)
    rdcnQuotients W m u a k (i + 1) (c ++ [q]) (acc / 2 ^ W)

/-- The second loop of 43_fp R163 and its end: the result digits, the last of them with the carry. -/
def rdcnResult (W n m a : Nat) (c : List Nat) : Nat → Nat → Nat → Nat
  | 0, _, acc => accAdd W acc (digit W a (2 * n - 1))
  | k + 1, i, acc =>
    let acc := accAdd W (rdcnColumn W m i (i + 1 - n) (2 * n - 1 - i) c acc) (digit W a i)
    acc % 2 ^ W + 2 ^ W * rdcnResult W n m a c k (i + 1) (acc / 2 ^ W)

/-- `rdcn(a)`: Montgomery reduction of a 2n-digit value (43_fp R163), with the final corrective
subtraction. -/
def rdcn (W n m u a : Nat) : Nat :=
  let (c, acc) := rdcnQuotients W m u a n 0 [] 0
  let t := rdcnResult W n m a c (n - 1) n acc
  let carry := t / 2 ^ (W * n)
  let r := t % 2 ^ (W * n)
  if carry ≥ 1 ∨ r ≥ m then digits W n (r + carry * 2 ^ (W * n) - m) else r

/-- T = Σ eps[i]·2^s[i] over the first `cnt` terms (43_fp R164, 10_state R47). -/
def sparseTail (terms : List SparseTerm) : Int :=
  (terms.map fun t => if t.neg then -(2 : Int) ^ t.s.toNat else 2 ^ t.s.toNat).sum

/-- The quotient loop of 43_fp R164; 70_reset R380 bounds it. -/
def rdcsLoop (top : Nat) (tail : Int) : Nat → Int → Int
  | 0, r => r
  | fuel + 1, r =>
    let q := r.tdiv (2 ^ top)
    if q = 0 then r else rdcsLoop top tail fuel (r - q * 2 ^ top - q * tail)

/-- `rdcs(a)`: sparse reduction (43_fp R164). The last two loops of the rule add or subtract p until
the value lies in [0, p), which is the residue mod p. -/
def rdcs (b : Build) (p top : Nat) (tail : Int) (a : Nat) : Nat :=
  (rdcsLoop top tail (2 * b.fpDigs * b.W) a % (p : Int)).toNat

/-- The digit u with (p·u + 1) mod 2^W = 0 (10_state R46): 2^W − p^(2^(W−1)−1) mod 2^W. -/
def montU (W p : Nat) : Nat := (2 ^ W - powMod (2 ^ W) p (2 ^ (W - 1) - 1)) % 2 ^ W

/-! Square roots (43_fp R174): the Tonelli-Shanks method; the source names none. -/

/-- p − 1 = 2^s·q with q odd, as (s, q). -/
def twoAdic : Nat → Nat → Nat × Nat
  | 0, q => (0, q)
  | fuel + 1, q => if q % 2 = 0 then ((twoAdic fuel (q / 2)).1 + 1, (twoAdic fuel (q / 2)).2) else (0, q)

/-- The least non-residue from `z` on (Euler's criterion). -/
def nonResidue (p : Nat) : Nat → Nat → Nat
  | 0, z => z
  | fuel + 1, z => if powMod p z ((p - 1) / 2) = p - 1 then z else nonResidue p fuel (z + 1)

/-- `t^(2^k) mod p`. -/
def sqrTimes (p : Nat) : Nat → Nat → Nat
  | 0, t => t
  | k + 1, t => sqrTimes p k (t * t % p)

/-- The Tonelli-Shanks correction: at round k the order of `t` divides 2^k. -/
def tonelliLoop (p : Nat) : Nat → Nat → Nat → Nat → Nat
  | 0, r, _, _ => r
  | k + 1, r, t, c =>
    if sqrTimes p k t = 1 then tonelliLoop p k r t (c * c % p)
    else tonelliLoop p k (r * c % p) (t * (c * c % p) % p) (c * c % p)

/-- A candidate root of x modulo the odd prime p. -/
def sqrtCandidate (p x : Nat) : Nat :=
  let (s, q) := twoAdic (bitlen p) (p - 1)
  tonelliLoop p (s - 1) (powMod p x ((q + 1) / 2)) (powMod p x q)
    (powMod p (nonResidue p p 2) q)

/-- A root of x modulo the prime p, if x has one (43_fp R174). -/
def sqrtMod (p x : Nat) : Option Nat :=
  let r := sqrtCandidate p x
  if r * r % p = x % p then some r else none

/-- Euler's criterion: modulo a prime p this holds exactly of the x without a root. -/
def isNonSquare (p x : Nat) : Bool := powMod p x ((p - 1) / 2) == p - 1

end Sys2Proof.Machine
end

