-- ==== Sys2Proof/Machine/PrimeCurve.lean ====
section
/-! DEFINITION. The prime curve y² = x³ + ax + b over GF(p): its group law on residues (45_ep R240), what
a register stands for (R242, R243), its representatives (R244) and its multiplications (R255 to
R268). -/

namespace Sys2Proof.Machine

/-- `−P` (45_ep R240). -/
def epNegPt (p : Nat) : Pt → Pt
  | .inf => .inf
  | .aff x y => .aff x (negMod p y)
  | .unknown => .unknown

/-- The third point of the chord or tangent with slope `lam` through (x₁, y₁) (45_ep R240). -/
def epChord (p lam x1 y1 x2 : Nat) : Pt :=
  let x3 := subMod p (subMod p (lam * lam % p) x1) x2
  .aff x3 (subMod p (lam * subMod p x1 x3 % p) y1)

/-- `[2]P` by the tangent; infinity when y = 0 (45_ep R240, R246). -/
def epDblPt (p a : Nat) : Pt → Pt
  | .inf => .inf
  | .aff x y =>
    if y = 0 then .inf
    else
      match invMod p (2 * y % p) with
      | some t => epChord p ((3 * x * x + a) % p * t % p) x y x
      | none => .unknown
  | .unknown => .unknown

/-- `P + Q` (45_ep R240, R249). -/
def epAddPt (p a : Nat) : Pt → Pt → Pt
  | .inf, Q => Q
  | P, .inf => P
  | .aff x1 y1, .aff x2 y2 =>
    if x1 = x2 then
      if y1 = y2 then epDblPt p a (.aff x1 y1) else .inf
    else
      match invMod p (subMod p x2 x1) with
      | some t => epChord p (subMod p y2 y1 * t % p) x1 y1 x2
      | none => .unknown
  | _, _ => .unknown

/-- The group operations of the prime curve. -/
def epOps (p a : Nat) : PtOps Pt where
  zero := .inf
  neg := epNegPt p
  add := epAddPt p a
  dbl := epDblPt p a

/-- The projective curve equation Y² = X³ + aXZ⁴ + bZ⁶ on residues (45_ep R241). -/
def epOnCurve (p a b X Y Z : Nat) : Bool :=
  Y * Y % p == (X ^ 3 + a * X * Z ^ 4 + b * Z ^ 6) % p

/-- `pt(E)` (45_ep R242, R243). -/
def epPoint (bd : Build) (p : Nat) (e : PointReg) : Pt :=
  if e.z = 0 then .inf
  else
    match invMod p (valFp bd p e.z) with
    | some zi => .aff (valFp bd p e.x * (zi * zi % p) % p) (valFp bd p e.y * (zi * zi % p * zi % p) % p)
    | none => .unknown

/-- The normalised register value of a point, canonical infinity for O (45_ep R243, R255); none where there
is no point. `one` is `ONE_FP`. -/
def epNormal (bd : Build) (p one : Nat) : Pt → Option PointReg
  | .inf => some PointReg.infinity
  | .aff x y => some ⟨repFp bd p x, repFp bd p y, one, true⟩
  | .unknown => none

/-- The representative of a point with Z = λ: (λ²x, λ³y, λ); `norm` may be set when λ = 1 (45_ep R242,
R244). As λ ranges over 1 .. p − 1 these are all of them. -/
def epRepresentative (bd : Build) (p one lam : Nat) (marked : Bool) : Pt → Option PointReg
  | .inf => some PointReg.infinity
  | .aff x y =>
    if lam = 1 ∧ marked then some ⟨repFp bd p x, repFp bd p y, one, true⟩
    else
      some ⟨repFp bd p (lam * lam * x % p), repFp bd p (lam * lam * lam * y % p), repFp bd p lam, false⟩
  | .unknown => none

/-- The multiplication of method `v` for k ≥ 0 (45_ep R257 to R259). -/
def epMulBy (v : EpMul) (o : PtOps Pt) (w : Nat) (k : Nat) (P : Pt) : Pt :=
  if k = 0 ∨ P = .inf then .inf
  else
    match v with
    | .basic => mulBasic o k P
    | .lwnaf => mulLwnaf o w k P
    | .rwnaf => mulRwnaf o w k P

/-- The two-scalar multiplication of method `v` (45_ep R264 to R267). -/
def epSimBy (v : SimMethod) (mul : EpMul) (o : PtOps Pt) (w wTrick : Nat) (k : Int) (P : Pt) (l : Int)
    (Q : Pt) : Pt :=
  match v with
  | .basic => o.add (mulSigned o (epMulBy mul o w) k P) (mulSigned o (epMulBy mul o w) l Q)
  | .trick => simSigned o (simTrick o wTrick) k P l Q
  | .inter => simSigned o (simInter o w) k P l Q
  | .joint => simSigned o (simJoint o) k P l Q

end Sys2Proof.Machine
end

