-- ==== Sys2Proof/Machine/Operands.lean ====
section
/-! DEFINITION. What a command tests before it computes (60_exceptions R333, R338, R353): configuration,
canonicity, the curve equation; the truth of a context (70_reset R368); the files that `sp` selects
(40_dv R110); and the free results of 93 U8 to U10. -/

namespace Sys2Proof.Machine

/-- The test `ok`, which raises `NoValidConfig`. -/
def needConfig (ok : Bool) : Check := ⟨ok, .noValidConfig⟩

/-- The test `ok`, which raises `InvalidInput`. -/
def needInput (ok : Bool) : Check := ⟨ok, .invalidInput⟩

/-- `HAS_FP` and `STATUS.INIT = 1` (43_fp R160, 45_ep R241). -/
def fpReady (s : State) : Bool := s.build.hasFp && s.status.init

/-- `HAS_FB` and `STATUS.INIT = 1` (44_fb R200). -/
def fbReady (s : State) : Bool := s.build.hasFb && s.status.init

/-- The binary-curve configuration: `HAS_FB`, `INIT = 1` and not supersingular (46_eb R281). -/
def ebReady (s : State) : Bool := fbReady s && !s.ctx.ebFlags.super

/-- The polynomial f of `CTX.FB_POLY` (10_state R49). -/
def fbPoly (s : State) : Nat :=
  if s.ctx.fb = 0 ∧ s.ctx.fc = 0 then 2 ^ s.build.m ^^^ 2 ^ s.ctx.fa.toNat ^^^ 1
  else 2 ^ s.build.m ^^^ 2 ^ s.ctx.fa.toNat ^^^ 2 ^ s.ctx.fb.toNat ^^^ 2 ^ s.ctx.fc.toNat ^^^ 1

/-- A canonical `N` register: not negative zero (10_state R32). -/
def BigReg.canon (r : BigReg) : Bool := !r.sign || !(r.mag == 0)

/-- A canonical `FP` register: below p (10_state R33). -/
def fpCanon (s : State) (v : Nat) : Bool := decide (v < s.ctx.fpP)

/-- A canonical `FB` register: no bit above m − 1 (10_state R34). -/
def fbCanon (s : State) (v : Nat) : Bool := decide (v < 2 ^ s.build.m)

/-- A canonical `EP` register (10_state R35). -/
def epCanon (s : State) (e : PointReg) : Bool :=
  fpCanon s e.x && fpCanon s e.y && fpCanon s e.z && (!e.norm || e.z == s.ctx.fpOne)

/-- A canonical `EB` register (10_state R35); the field-1 element is the polynomial 1 (46_eb R282). -/
def ebCanon (s : State) (e : PointReg) : Bool :=
  fbCanon s e.x && fbCanon s e.y && fbCanon s e.z && (!e.norm || e.z == 1)

/-- The residue that an `FP` digit vector stands for, in the context (00_scope R25). -/
def State.valFp (s : State) (v : Nat) : Nat := Machine.valFp s.build s.ctx.fpP v

/-- The register digits of a residue, in the context (00_scope R25). -/
def State.repFp (s : State) (v : Nat) : Nat := Machine.repFp s.build s.ctx.fpP v

/-- Infinity, or on the prime curve (45_ep R241). -/
def epOn (s : State) (e : PointReg) : Bool :=
  e.z == 0 || epOnCurve s.ctx.fpP (s.valFp s.ctx.ep.a) (s.valFp s.ctx.ep.b)
    (s.valFp e.x) (s.valFp e.y) (s.valFp e.z)

/-- Infinity, or on the binary curve (46_eb R281). -/
def ebOn (s : State) (e : PointReg) : Bool :=
  e.z == 0 || ebOnCurve s.build.m (fbPoly s) s.ctx.eb.a s.ctx.eb.b e.x e.y e.z

/-- The tests of an `FP` command with sources `vs` (43_fp R160). -/
def fpChecks (s : State) (vs : List Nat) : List Check :=
  needConfig (fpReady s) :: vs.map fun v => needInput (fpCanon s v)

/-- The tests of an `FB` command with its own configuration condition and sources `vs` (44_fb R200). -/
def fbChecks (s : State) (own : Bool) (vs : List Nat) : List Check :=
  needConfig (fbReady s) :: needConfig own :: vs.map fun v => needInput (fbCanon s v)

/-- The tests of an `EP` command: configuration, canonical points and scalars, then the curve equation
when `EP_CHECK` (45_ep R241, 60_exceptions R338). `own` is the presence of the variant. -/
def epChecks (s : State) (own : Bool) (es : List PointReg) (ks : List BigReg) : List Check :=
  needConfig (fpReady s) :: needConfig own ::
    (es.map (fun e => needInput (epCanon s e)) ++ ks.map (fun k => needInput k.canon) ++
      es.map (fun e => needInput (!s.build.epCheck || epOn s e)))

/-- The tests of an `EB` command (46_eb R281). `own` is the command's own configuration condition. -/
def ebChecks (s : State) (own : Bool) (es : List PointReg) (ks : List BigReg) : List Check :=
  needConfig (ebReady s) :: needConfig own ::
    (es.map (fun e => needInput (ebCanon s e)) ++ ks.map (fun k => needInput k.canon) ++
      es.map (fun e => needInput (!s.build.ebCheck || ebOn s e)))

/-! The truth of a context (70_reset R368), decided exactly. Each test asks first for a quick proof and only
where that fails for the definition, so that the contexts of spec/95 can be evaluated (log 10). -/

/-- No d with d₀ ≤ d and d² ≤ p divides p, for d₀ = `d`. -/
def noDivisor (p : Nat) : Nat → Nat → Bool
  | 0, _ => true
  | fuel + 1, d => if p < d * d then true else if p % d = 0 then false else noDivisor p fuel (d + 1)

/-- Primes that trial division would take too long for: p and n of P-256, n of K-283 (95 sections 1.3, 1.4).
The list changes no value, since they are prime. PRESUMED (log 29). -/
def knownPrimes : List Nat :=
  [0xffffffff00000001000000000000000000000000ffffffffffffffffffffffff,
   0xffffffff00000000ffffffffffffffffbce6faada7179e84f3b9cac2fc632551,
   0x01ffffffffffffffffffffffffffffffffffe9ae2ed07577265dff7f94451e061e163c61]

/-- p is prime. -/
def isPrime (p : Nat) : Bool := decide (2 ≤ p) && (knownPrimes.contains p || noDivisor p p 2)

/-- A quick proof that f is irreducible, by the test of Rabin: z^(2^m) = z, and z^(2^d) + z is invertible for
every proper divisor d of m. -/
def isRabin (m f : Nat) : Bool :=
  fbSqrTimes m f m 2 == 2 &&
    (List.range m).all fun d => d == 0 || m % d != 0 || (fbInvP m f (fbSqrTimes m f d 2 ^^^ 2)).isSome

/-- Every non-zero element has an inverse, which is what the irreducibility of f gives (44_fb R211). -/
def isField (m f : Nat) : Bool :=
  isRabin m f || decide (∀ a < 2 ^ m, 0 < a → ∃ x < 2 ^ m, fbMulP m f a x = 1)

/-- G has order n; that no smaller multiple of G is O is plain where n is prime. -/
def hasOrder (o : PtOps Pt) (n : Nat) (G : Pt) : Bool :=
  decide (0 < n) && mulBasic o n G == .inf && G != .inf &&
    (isPrime n || decide (∀ d < n, 0 < d → mulBasic o d G ≠ .inf))

/-- The number of points of a curve with coordinates below q, infinity with them. -/
def pointCount (q : Nat) (on : Nat → Nat → Bool) : Nat :=
  1 + ((List.range q).map fun x => (List.range q).countP (on x)).sum

/-- The curve over a field of q elements has n·h points, G of order n being one. A quick proof: n² > 16·q, and
|n·h − (q + 1)| ≤ 2√q; by the bound of Hasse n·h is then the one multiple of n that can be the number. -/
def hasCount (q n h : Nat) (on : Nat → Nat → Bool) : Bool :=
  (decide (16 * q < n * n) && decide (((n * h : Nat) - (q + 1 : Nat) : Int) ^ 2 ≤ 4 * q)) ||
    pointCount q on == n * h

/-- The prime field is one: all that an `FP` command rests on. -/
def fpTrue (s : State) : Bool := isPrime s.ctx.fpP

/-- The prime side is true (70_reset R368): a curve that is not singular, G on it and of order n, n·h
points. -/
def epTrue (s : State) : Bool :=
  let p := s.ctx.fpP
  let a := s.valFp s.ctx.ep.a
  let b := s.valFp s.ctx.ep.b
  let gx := s.valFp s.ctx.ep.gx
  let gy := s.valFp s.ctx.ep.gy
  isPrime p && (4 * a ^ 3 + 27 * b ^ 2) % p != 0 && epOnCurve p a b gx gy 1 &&
    hasOrder (epOps p a) s.ctx.ep.n (.aff gx gy) &&
    hasCount p s.ctx.ep.n s.ctx.ep.h (fun x y => epOnCurve p a b x y 1)

/-- The binary field is one: all that an `FB` command rests on. -/
def fbTrue (s : State) : Bool := isField s.build.m (fbPoly s)

/-- The binary side is true (70_reset R368): b ≠ 0, G on the curve and of order n, n·h points, and
`EB_FLAGS` truthful: the curve has the form of 46_eb R280, so it is not supersingular; it is a Koblitz
curve when a is 0 or 1 and b is 1, and then μ = −1 for a = 0 (46_eb R288). -/
def ebTrue (s : State) : Bool :=
  let m := s.build.m
  let f := fbPoly s
  let c := s.ctx.eb
  let on := ebOnCurve m f c.a c.b
  fbTrue s && c.b != 0 && !s.ctx.ebFlags.super &&
    s.ctx.ebFlags.kbltz == decide (c.a ≤ 1 ∧ c.b = 1) &&
    (!s.ctx.ebFlags.kbltz || s.ctx.ebFlags.muneg == decide (c.a = 0)) &&
    on c.gx c.gy 1 && hasOrder (ebOps m f c.a) c.n (.aff c.gx c.gy) &&
    hasCount (2 ^ m) c.n c.h (fun x y => on x y 1)

/-- `v` where `ok`, else no specified value. -/
def given {α : Type} (ok : Bool) (v : Option α) : Option α := if ok then v else none

/-! Results the spec leaves unspecified: any canonical value. -/

/-- `FP[rd] <- v`; any canonical value in a false context (70_reset R368, 93 U10, log 10), and where `v` is
none, which only a false context allows. -/
def State.putFpOr (s : State) (rd : Reg) (v : Option Nat) : State :=
  match given (fpTrue s) v with
  | some v => s.putFp rd v
  | none => (s.putFp rd (s.draw 0 % s.ctx.fpP)).drawn 1

/-- `FB[rd] <- v`; any canonical value in a false context (70_reset R368, 93 U10, log 10), and where `v` is
none, which only a false context allows. -/
def State.putFbOr (s : State) (rd : Reg) (v : Option Nat) : State :=
  match given (fbTrue s) v with
  | some v => s.putFb rd v
  | none => (s.putFb rd (s.draw 0 % 2 ^ s.build.m)).drawn 1

/-- `DV[rd] <- v` where `ok`, else any value (93 U10). -/
def State.putDvOr (s : State) (ok : Bool) (rd : Reg) (v : Nat) : State :=
  if ok then s.putDv rd v else (s.putDv rd (s.draw 0)).drawn 1

/-- A free comparison result (93 U10). -/
def freeCmp (s : State) : CmpResult :=
  if s.draw 0 % 3 = 0 then .equal else if s.draw 0 % 3 = 1 then .less else .greater

/-- `FLAGS.CMP <- v` where `ok`, else any of its three values (93 U10). -/
def State.setCmpOr (s : State) (ok : Bool) (v : CmpResult) : State :=
  if ok then s.setCmp v else (s.setCmp (freeCmp s)).drawn 1

/-- A free canonical `EP` value from four free values (93 U8). -/
def freeEp (s : State) : PointReg :=
  let p := s.ctx.fpP
  let marked := s.draw 3 % 2 == 1
  ⟨s.draw 0 % p, s.draw 1 % p, if marked then s.ctx.fpOne else s.draw 2 % p, marked⟩

/-- A free canonical `EB` value from four free values (93 U8, U9). -/
def freeEb (s : State) : PointReg :=
  let q := 2 ^ s.build.m
  let marked := s.draw 3 % 2 == 1
  ⟨s.draw 0 % q, s.draw 1 % q, if marked then 1 else s.draw 2 % q, marked⟩

/-- `EP[rd] <-` an unspecified canonical point value (93 U8). -/
def State.putFreeEp (s : State) (rd : Reg) : State := (s.putEp rd (freeEp s)).drawn 4

/-- `EB[rd] <-` an unspecified canonical point value (93 U8, U9). -/
def State.putFreeEb (s : State) (rd : Reg) : State := (s.putEb rd (freeEb s)).drawn 4

/-- The writes of an `EP` command that draws `k` free values: `e` when every source is on the curve, the
context is not false and the rules determine the value, else an unspecified value (45_ep R241, 93 U8,
U10). -/
def State.epResult (s : State) (es : List PointReg) (rd : Reg) (e : Option PointReg) (k : Nat) : State :=
  match given (es.all (epOn s) && epTrue s) e with
  | some e => (s.putEp rd e).drawn k
  | none => s.putFreeEp rd

/-- The writes of an `EB` command that draws `k` free values: `e` when every source is on the curve, the
context is not false and the rules determine the value, else an unspecified value (46_eb R281, 93 U8
to U10). -/
def State.ebResult (s : State) (es : List PointReg) (rd : Reg) (e : Option PointReg) (k : Nat) : State :=
  match given (es.all (ebOn s) && ebTrue s) e with
  | some e => (s.putEb rd e).drawn k
  | none => s.putFreeEb rd

/-! The files that `sp` selects (40_dv R110). -/

/-- The unit of the selected file is present (40_dv R110). -/
def spPresent (b : Build) (sp : Nib) : Bool :=
  if sp = 5 ∨ sp = 7 then b.hasFp else if sp = 6 ∨ sp = 8 then b.hasFb else true

/-- Set a register of the selected file to zero (40_dv R111). -/
def State.zeroReg (s : State) (sp : Nib) (rd : Reg) : State :=
  match sp.val with
  | 2 => { s with dv := s.dv.set rd 0 }
  | 3 => { s with n := s.n.set rd BigReg.zero }
  | 4 => { s with rc := s.rc.set rd (RecReg.zero s.build) }
  | 5 => { s with fp := s.fp.set rd 0 }
  | 6 => { s with fb := s.fb.set rd 0 }
  | 7 => { s with ep := s.ep.set rd PointReg.infinity }
  | 8 => { s with eb := s.eb.set rd PointReg.infinity }
  | _ => s

/-- Copy a register of the selected file, every bit (40_dv R112). -/
def State.copyReg (s : State) (sp : Nib) (rd ra : Reg) : State :=
  match sp.val with
  | 2 => { s with dv := s.dv.set rd s.dv[ra] }
  | 3 => { s with n := s.n.set rd s.n[ra] }
  | 4 => { s with rc := s.rc.set rd s.rc[ra] }
  | 5 => { s with fp := s.fp.set rd s.fp[ra] }
  | 6 => { s with fb := s.fb.set rd s.fb[ra] }
  | 7 => { s with ep := s.ep.set rd s.ep[ra] }
  | 8 => { s with eb := s.eb.set rd s.eb[ra] }
  | _ => s

/-- `val(digits of F[r])` for the files that `DV.CMP` compares; magnitudes for `N` (40_dv R113). -/
def State.fileValue (s : State) (sp : Nib) (r : Reg) : Nat :=
  match sp.val with
  | 2 => s.dv[r]
  | 3 => s.n[r].mag
  | 5 => s.fp[r]
  | 6 => s.fb[r]
  | _ => 0

end Sys2Proof.Machine
end

