-- ==== Sys2Proof/Machine/Bn.lean ====
section
/-! DEFINITION. The integer commands (41_bn R120 to R132). -/

namespace Sys2Proof.Machine

/-- |r| < 2^(BN_DIGS·W), else `PrecisionExceeded` (41_bn R121, 60_exceptions R334). -/
def needFit (b : Build) (r : Int) : Check :=
  ⟨decide (r.natAbs < 2 ^ (b.W * b.bnDigs)), .precisionExceeded⟩

/-- `BN.ADD` (41_bn R123). -/
def execBnAdd (rd ra rb : Reg) (s : State) : Host.Outcome State Fault Refusal :=
  command 0x20
    [needInput s.n[ra].canon, needInput s.n[rb].canon, needFit s.build (s.n[ra].val + s.n[rb].val)]
    (fun s => s.putN rd (s.n[ra].val + s.n[rb].val)) s

/-- `BN.SUB` (41_bn R124). -/
def execBnSub (rd ra rb : Reg) (s : State) : Host.Outcome State Fault Refusal :=
  command 0x21
    [needInput s.n[ra].canon, needInput s.n[rb].canon, needFit s.build (s.n[ra].val - s.n[rb].val)]
    (fun s => s.putN rd (s.n[ra].val - s.n[rb].val)) s

/-- `BN.MUL` (41_bn R125). -/
def execBnMul (rd ra rb : Reg) (s : State) : Host.Outcome State Fault Refusal :=
  command 0x22
    [needInput s.n[ra].canon, needInput s.n[rb].canon, needFit s.build (s.n[ra].val * s.n[rb].val)]
    (fun s => s.putN rd (s.n[ra].val * s.n[rb].val)) s

/-- `BN.SQR` (41_bn R126). -/
def execBnSqr (rd ra : Reg) (s : State) : Host.Outcome State Fault Refusal :=
  command 0x23 [needInput s.n[ra].canon, needFit s.build (s.n[ra].val * s.n[ra].val)]
    (fun s => s.putN rd (s.n[ra].val * s.n[ra].val)) s

/-- `BN.DIV` (41_bn R127): the quotient rounded toward zero and the remainder of the dividend's sign. -/
def execBnDiv (rd rc ra rb : Reg) (s : State) : Host.Outcome State Fault Refusal :=
  command 0x24
    [needInput (!(rd == rc)), needInput s.n[ra].canon, needInput s.n[rb].canon,
     needInput (!(s.n[rb].val == 0)),
     needFit s.build (s.n[ra].val.tdiv s.n[rb].val), needFit s.build (s.n[ra].val.tmod s.n[rb].val)]
    (fun s =>
      let a := s.n[ra].val
      let b := s.n[rb].val
      (s.putN rd (a.tdiv b)).putN rc (a.tmod b)) s

/-- `BN.MOD` (41_bn R128). -/
def execBnMod (rd ra rb : Reg) (s : State) : Host.Outcome State Fault Refusal :=
  command 0x25
    [needInput s.n[ra].canon, needInput s.n[rb].canon, needInput (!(s.n[rb].val == 0))]
    (fun s => s.putN rd (s.n[ra].val % (s.n[rb].mag : Int))) s

/-- `BN.GCD` (41_bn R129). -/
def execBnGcd (rd ra rb : Reg) (s : State) : Host.Outcome State Fault Refusal :=
  command 0x26 [needInput s.n[ra].canon, needInput s.n[rb].canon]
    (fun s => s.putN rd (Nat.gcd s.n[ra].mag s.n[rb].mag)) s

/-- `BN.LSH` (41_bn R130). -/
def execBnLsh (rd ra : Reg) (imm16 : BitVec 16) (s : State) : Host.Outcome State Fault Refusal :=
  command 0x27 [needInput s.n[ra].canon, needFit s.build (s.n[ra].val * 2 ^ imm16.toNat)]
    (fun s => s.putN rd (s.n[ra].val * 2 ^ imm16.toNat)) s

/-- `BN.RSH` (41_bn R131): on the magnitude. -/
def execBnRsh (rd ra : Reg) (imm16 : BitVec 16) (s : State) : Host.Outcome State Fault Refusal :=
  command 0x28 [needInput s.n[ra].canon]
    (fun s => s.putN rd (s.n[ra].val.tdiv (2 ^ imm16.toNat))) s

end Sys2Proof.Machine
end

