-- ==== Sys2Proof/Machine/Dv.lean ====
section
/-! DEFINITION. The digit-vector commands (40_dv R110 to R113). -/

namespace Sys2Proof.Machine

/-- `DV.ZERO` (40_dv R111). -/
def execDvZero (sp : Nib) (rd : Reg) (s : State) : Host.Outcome State Fault Refusal :=
  command 0x10 [needInput (spFile sp), needConfig (spPresent s.build sp)] (fun s => s.zeroReg sp rd) s

/-- `DV.COPY` (40_dv R112). -/
def execDvCopy (sp : Nib) (rd ra : Reg) (s : State) : Host.Outcome State Fault Refusal :=
  command 0x11 [needInput (spFile sp), needConfig (spPresent s.build sp)]
    (fun s => s.copyReg sp rd ra) s

/-- `DV.CMP` (40_dv R113). -/
def execDvCmp (sp : Nib) (ra rb : Reg) (s : State) : Host.Outcome State Fault Refusal :=
  command 0x12 [needInput (spCompared sp), needConfig (spPresent s.build sp)]
    (fun s => s.setCmp (compareNat (s.fileValue sp ra) (s.fileValue sp rb))) s

end Sys2Proof.Machine
end

