-- ==== Sys2Proof/Machine/Tnaf.lean ====
section
/-! DEFINITION. The τ-adic NAF as the relation of 42_rec R148: a free choice among the digit sequences
that meet its four conditions (93 U6), and the two operations that rest on it being well chosen (46_eb
R304). -/

namespace Sys2Proof.Machine

/-- The operations of the context's binary curve. -/
def State.ebOps (s : State) : PtOps Pt := Machine.ebOps s.build.m (fbPoly s) s.ctx.eb.a

/-- φ on the context's curve (46_eb R288). -/
def State.frob (s : State) (P : Pt) : Pt := ebFrobenius s.build.m (fbPoly s) P

/-- The four conditions of 42_rec R148 on a digit sequence for k and width w. The fourth is tested on G:
since φ is an endomorphism of the curve (R149), what holds for G holds for every [j]G. -/
def tnafValid (s : State) (w k : Nat) (ds : List Int) : Bool :=
  let G := Pt.aff s.ctx.eb.gx s.ctx.eb.gy
  decide (ds.length ≤ s.build.m + s.build.tnafExtra) &&
  ds.all (windowDigit w) && nonAdjacent w ds &&
  tauSum s.ebOps s.frob ds G == mulBasic s.ebOps k G

/-- The digits of width w: 0, ±1, ±3, …, ±(2^(w−1) − 1) (42_rec R148). -/
def tnafDigits (w : Nat) : List Int :=
  0 :: (List.range (2 ^ (w - 2))).flatMap fun j => [2 * (j : Int) + 1, -(2 * (j : Int) + 1)]

/-- The sequence that the free values propose: a length, then its digits. -/
def tnafDrawn (s : State) (w : Nat) : List Int :=
  (List.range (s.draw 0 % (s.build.m + s.build.tnafExtra + 1))).map fun i =>
    (tnafDigits w).getD (s.draw (i + 1) % (tnafDigits w).length) 0

/-- The first sequence that extends `ds` by at most `n` digits and passes `ok`. -/
def findDigits (ok : List Int → Bool) (alphabet : List Int) : Nat → List Int → Option (List Int)
  | 0, ds => if ok ds then some ds else none
  | n + 1, ds =>
    if ok ds then some ds else alphabet.findSome? fun d => findDigits ok alphabet n (ds ++ [d])

/-! Elements a + bτ of Z[τ] as pairs, τ² = μτ − 2 (42_rec R149). They only find a sequence that meets the
four conditions; nothing rests on them. -/

/-- x·τ. -/
def timesTau (mu : Int) (x : Int × Int) : Int × Int := (-2 * x.2, x.1 + mu * x.2)

/-- x/τ, for an x whose first coordinate is even. -/
def overTau (mu : Int) (x : Int × Int) : Int × Int := (x.2 + mu * (x.1 / 2), -(x.1 / 2))

/-- 1 + τ + … + τ^(n−1), which is (τ^n − 1)/(τ − 1) (90_conflicts C5). -/
def tauOnes (mu : Int) : Nat → Int × Int
  | 0 => (0, 0)
  | n + 1 => let x := timesTau mu (tauOnes mu n); (x.1 + 1, x.2)

/-- a/n to the nearest integer. -/
def nearest (a n : Int) : Int := (2 * a + n) / (2 * n)

/-- k − (q + i + jτ)·d for the q nearest to k/d: the partial reduction of k (90_conflicts C5), moved by a
small multiple of d. -/
def tauReduce (mu : Int) (d : Int × Int) (k i j : Int) : Int × Int :=
  let n := d.1 * d.1 + mu * d.1 * d.2 + 2 * d.2 * d.2
  let q := (nearest (k * (d.1 + mu * d.2)) n + i, nearest (k * -d.2) n + j)
  (k - (q.1 * d.1 - 2 * q.2 * d.2), -(q.1 * d.2 + q.2 * d.1 + mu * q.2 * d.2))

/-- The even t with t² + 2 ≡ μt modulo 2^w, to which τ is congruent modulo τ^w. -/
def tauResidue (mu : Int) (w : Nat) : Nat :=
  ((List.range (2 ^ w)).find? fun t : Nat =>
    t % 2 == 0 && ((t : Int) * t + 2 - mu * t) % 2 ^ w == 0).getD 0

/-- The width-w digits of x, at most `n` of them. -/
def tauExpand (mu : Int) (w t : Nat) : Nat → Int × Int → Option (List Int)
  | 0, x => if x = (0, 0) then some [] else none
  | n + 1, x =>
    if x = (0, 0) then some []
    else
      let u := if x.1 % 2 = 0 then 0 else signedResidue w (x.1 + x.2 * t)
      (tauExpand mu w t n (overTau mu (x.1 - u, x.2))).map (u :: ·)

/-- The expansions of the elements congruent to k that lie nearest to 0. -/
def tnafCandidates (s : State) (w k : Nat) : List (List Int) :=
  let mu : Int := if s.ctx.eb.a = 1 then 1 else -1
  let near : List Int := [0, 1, -1, 2, -2]
  near.flatMap fun i => near.filterMap fun j =>
    tauExpand mu w (tauResidue mu w) (s.build.m + s.build.tnafExtra)
      (tauReduce mu (tauOnes mu s.build.m) k i j)

/-- The digits that `REC.TNAF` writes: what the free values propose if it meets the four conditions; else
a candidate that does; else the first sequence that does; any sequence where none does (42_rec R148,
93 U6, log 13); what the free values propose in a false context (93 U10, log 10). k = 0 gives no digit in
a true one. -/
def tnaf (s : State) (w k : Nat) : List Int :=
  let ok := tnafValid s w k
  if !ebTrue s then tnafDrawn s w
  else if k = 0 then []
  else if ok (tnafDrawn s w) then tnafDrawn s w
  else
    match (tnafCandidates s w k).find? ok with
    | some ds => ds
    | none =>
      (findDigits ok (tnafDigits w) (s.build.m + s.build.tnafExtra) []).getD (tnafDrawn s w)

/-- P lies in the subgroup of order n of the binary curve (46_eb R304, 70_reset R369). -/
def State.inSubgroup (s : State) (P : Pt) : Bool := mulBasic s.ebOps s.ctx.eb.n P == .inf

/-- The methods that are τ-adic on a Koblitz curve (46_eb R304). -/
def isTauAdic : EbMul → Bool
  | .lwnaf => true
  | .rwnaf => true
  | _ => false

/-- The configuration condition of a multiplication method (46_eb R301, R303). -/
def ebMulAllowed (s : State) : EbMul → Bool
  | .rwnaf =>
    !s.ctx.ebFlags.kbltz || (!s.build.mixedStrip && decide (3 ≤ s.build.ebWidth ∧ s.build.ebWidth ≤ 6))
  | .halve => s.build.m % 2 == 1 && s.ctx.eb.n % 2 == 1 && decide (3 ≤ s.ctx.eb.n)
  | _ => true

/-- An odd number that kills P; none when P has even order (46_eb R289, log 8). -/
def State.oddOrder (s : State) (P : Pt) : Option Nat :=
  oddExponent s.ebOps s.build.m [s.ctx.eb.n, s.ctx.eb.n * s.ctx.eb.h] P

/-- [k]P by method `v`; none where the rules leave the value unspecified: a τ-adic method on a point outside the
subgroup of order n, and halving on a point of even order (46_eb R298 to R304, 70_reset R369, 93 U9). On a
point of odd order, `HALVE` gives what the loop of R303 gives, [k]P in the subgroup of order n; every point
of the loop is a multiple of P, so one odd number kills them all (log 9). -/
def ebMulBy (s : State) (v : EbMul) (k : Int) (P : Pt) : Option Pt :=
  let o := s.ebOps
  if k = 0 ∨ P = .inf then some .inf
  else if isTauAdic v && s.ctx.ebFlags.kbltz then
    if s.inSubgroup P then some (mulSigned o (mulBasic o) k P) else none
  else
    match v with
    | .basic => some (mulSigned o (mulBasic o) k P)
    | .lwnaf => some (mulSigned o (mulLwnaf o s.build.ebWidth) k P)
    | .rwnaf => some (mulSigned o (mulRwnaf o s.build.ebWidth) k P)
    | .lodah => some (mulLodah s.build.m (fbPoly s) s.ctx.eb.a s.ctx.eb.b k P)
    | .halve => (s.oddOrder P).map fun r => mulHalve o (halfBy o r) s.ctx.eb.n k P

/-- The method that `EB.SIM.BASIC` multiplies with: the build's (46_eb R309). Double-and-add stands for it where it
is not allowed in this context (60_exceptions R344; log 16), and where it is `HALVE`: halving gives [k]P in
the subgroup of order n only, and R308 and R313 give [k]P + [l]Q for all points. -/
def ebSimMul (s : State) : EbMul :=
  if s.build.ebMul ≠ .halve ∧ ebMulAllowed s s.build.ebMul then s.build.ebMul else .basic

/-- [k]P + [l]Q by method `v`; none where unspecified (46_eb R308 to R312), as where `v` is τ-adic and a source
lies outside the subgroup of order n (70_reset R369). -/
def ebSimBy (s : State) (v : SimMethod) (k : Int) (P : Pt) (l : Int) (Q : Pt) : Option Pt :=
  let o := s.ebOps
  match v with
  | .basic =>
    match ebMulBy s (ebSimMul s) k P, ebMulBy s (ebSimMul s) l Q with
    | some A, some B => some (o.add A B)
    | _, _ => none
  | .trick => some (simSigned o (simTrick o s.build.trickWidth) k P l Q)
  | .inter =>
    if s.ctx.ebFlags.kbltz then
      match ebMulBy s .lwnaf k P, ebMulBy s .lwnaf l Q with
      | some A, some B => some (o.add A B)
      | _, _ => none
    else some (simSigned o (simInter o s.build.ebWidth) k P l Q)
  | .joint => some (simSigned o (simJoint o) k P l Q)

end Sys2Proof.Machine
end

