-- ==== Sys2Proof/Machine/Eb.lean ====
section
/-! DEFINITION. The binary-curve commands (46_eb R280 to R313). -/

namespace Sys2Proof.Machine

/-- `pt(EB[r])` of a register value, in the context (46_eb R282). -/
def State.ebPt (s : State) (e : PointReg) : Pt := ebPoint s.build.m (fbPoly s) e

/-- Some canonical representative of a point: Z is a free non-zero element and, where Z = 1, `norm` a free
bit (46_eb R283, 93 U1, log 11). -/
def State.ebSome (s : State) (P : Pt) : Option PointReg :=
  ebRepresentative s.build.m (fbPoly s) (1 + s.draw 0 % (2 ^ s.build.m - 1)) (s.draw 1 % 2 == 1) P

/-- `EB[rd] <-` a representative of P (46_eb R283); an unspecified value when a source is off the curve
(46_eb R281). -/
def State.putEbSome (s : State) (es : List PointReg) (rd : Reg) (P : Pt) : State :=
  s.ebResult es rd (s.ebSome P) 2

/-- The register value that `EB.NEG` writes (46_eb R284). -/
def ebNegReg (m f : Nat) (e : PointReg) : PointReg :=
  if e.z = 0 then PointReg.infinity else ⟨e.x, e.y ^^^ fbMulP m f e.x e.z, e.z, e.norm⟩

/-- `EB.NEG` (46_eb R284). -/
def execEbNeg (rd ra : Reg) (s : State) : Host.Outcome State Fault Refusal :=
  command 0x80 (ebChecks s true [s.eb[ra]] [])
    (fun s => s.ebResult [s.eb[ra]] rd (some (ebNegReg s.build.m (fbPoly s) s.eb[ra])) 0) s

/-- `EB.DBL` (46_eb R285). -/
def execEbDbl (rd ra : Reg) (s : State) : Host.Outcome State Fault Refusal :=
  command 0x81 (ebChecks s true [s.eb[ra]] [])
    (fun s => s.putEbSome [s.eb[ra]] rd (s.ebOps.dbl (s.ebPt s.eb[ra]))) s

/-- `EB.ADD` (46_eb R286). -/
def execEbAdd (rd ra rb : Reg) (s : State) : Host.Outcome State Fault Refusal :=
  command 0x82 (ebChecks s true [s.eb[ra], s.eb[rb]] [])
    (fun s =>
      s.putEbSome [s.eb[ra], s.eb[rb]] rd (s.ebOps.add (s.ebPt s.eb[ra]) (s.ebPt s.eb[rb]))) s

/-- The register value that `EB.NORM` writes (46_eb R287). -/
def State.ebNormReg (s : State) (e : PointReg) : Option PointReg :=
  if e.z = 0 then some PointReg.infinity else if e.norm then some e else ebNormal (s.ebPt e)

/-- `EB.NORM` (46_eb R287). -/
def execEbNorm (rd ra : Reg) (s : State) : Host.Outcome State Fault Refusal :=
  command 0x83 (ebChecks s true [s.eb[ra]] [])
    (fun s => s.ebResult [s.eb[ra]] rd (s.ebNormReg s.eb[ra]) 0) s

/-- The register value that `EB.FRB` writes (46_eb R288). -/
def ebFrbReg (m f : Nat) (e : PointReg) : PointReg :=
  if e.z = 0 then PointReg.infinity
  else ⟨fbSqrP m f e.x, fbSqrP m f e.y, fbSqrP m f e.z, e.norm⟩

/-- `EB.FRB` (46_eb R288), on a Koblitz curve only. -/
def execEbFrb (rd ra : Reg) (s : State) : Host.Outcome State Fault Refusal :=
  command 0x84 (ebChecks s s.ctx.ebFlags.kbltz [s.eb[ra]] [])
    (fun s => s.ebResult [s.eb[ra]] rd (some (ebFrbReg s.build.m (fbPoly s) s.eb[ra])) 0) s

/-- The half of pt(E), normalised; none when pt(E) has even order (46_eb R289, log 8). -/
def State.ebHalfReg (s : State) (e : PointReg) : Option PointReg :=
  ((s.oddOrder (s.ebPt e)).map fun r => halfBy s.ebOps r (s.ebPt e)).bind ebNormal

/-- `EB.HLV` (46_eb R289), for odd m only. -/
def execEbHlv (rd ra : Reg) (s : State) : Host.Outcome State Fault Refusal :=
  command 0x85 (ebChecks s (s.build.m % 2 == 1) [s.eb[ra]] [])
    (fun s => s.ebResult [s.eb[ra]] rd (s.ebHalfReg s.eb[ra]) 0) s

/-! Scalar multiplication (46_eb R298 to R306). -/

/-- [k]pt(E), normalised, by method `v`; none where unspecified (46_eb R298). -/
def State.ebMulReg (s : State) (v : EbMul) (k : Int) (e : PointReg) : Option PointReg :=
  (ebMulBy s v k (s.ebPt e)).bind ebNormal

/-- The tests of a multiplication by method `v`; `own` is its presence (46_eb R281, R301, R303). -/
def ebMulChecks (s : State) (v : EbMul) (own : Bool) (e : PointReg) (k : BigReg) : List Check :=
  ebChecks s (own && ebMulAllowed s v) [e] [k]

/-- `EB.MUL` (46_eb R298, by the build's variant). -/
def execEbMul (rd ra rb : Reg) (s : State) : Host.Outcome State Fault Refusal :=
  command 0x90 (ebMulChecks s s.build.ebMul true s.eb[ra] s.n[rb])
    (fun s => s.ebResult [s.eb[ra]] rd (s.ebMulReg s.build.ebMul s.n[rb].val s.eb[ra]) 0) s

/-- `EB.MUL.BASIC` (46_eb R299). -/
def execEbMulBasic (rd ra rb : Reg) (s : State) : Host.Outcome State Fault Refusal :=
  command 0x90 (ebMulChecks s .basic (decide (.basic ∈ s.build.ebMulSet)) s.eb[ra] s.n[rb])
    (fun s => s.ebResult [s.eb[ra]] rd (s.ebMulReg .basic s.n[rb].val s.eb[ra]) 0) s

/-- `EB.MUL.LWNAF` (46_eb R300). -/
def execEbMulLwnaf (rd ra rb : Reg) (s : State) : Host.Outcome State Fault Refusal :=
  command 0x90 (ebMulChecks s .lwnaf (decide (.lwnaf ∈ s.build.ebMulSet)) s.eb[ra] s.n[rb])
    (fun s => s.ebResult [s.eb[ra]] rd (s.ebMulReg .lwnaf s.n[rb].val s.eb[ra]) 0) s

/-- `EB.MUL.RWNAF` (46_eb R301). -/
def execEbMulRwnaf (rd ra rb : Reg) (s : State) : Host.Outcome State Fault Refusal :=
  command 0x90 (ebMulChecks s .rwnaf (decide (.rwnaf ∈ s.build.ebMulSet)) s.eb[ra] s.n[rb])
    (fun s => s.ebResult [s.eb[ra]] rd (s.ebMulReg .rwnaf s.n[rb].val s.eb[ra]) 0) s

/-- `EB.MUL.LODAH` (46_eb R302). -/
def execEbMulLodah (rd ra rb : Reg) (s : State) : Host.Outcome State Fault Refusal :=
  command 0x90 (ebMulChecks s .lodah (decide (.lodah ∈ s.build.ebMulSet)) s.eb[ra] s.n[rb])
    (fun s => s.ebResult [s.eb[ra]] rd (s.ebMulReg .lodah s.n[rb].val s.eb[ra]) 0) s

/-- `EB.MUL.HALVE` (46_eb R303). -/
def execEbMulHalve (rd ra rb : Reg) (s : State) : Host.Outcome State Fault Refusal :=
  command 0x90 (ebMulChecks s .halve (decide (.halve ∈ s.build.ebMulSet)) s.eb[ra] s.n[rb])
    (fun s => s.ebResult [s.eb[ra]] rd (s.ebMulReg .halve s.n[rb].val s.eb[ra]) 0) s

/-! Two-scalar multiplication (46_eb R308 to R313). -/

/-- [k]pt(E) + [l]pt(F), normalised, by method `v`; none where unspecified (46_eb R308). -/
def State.ebSimReg (s : State) (v : SimMethod) (k : Int) (e : PointReg) (l : Int) (f : PointReg) :
    Option PointReg :=
  (ebSimBy s v k (s.ebPt e) l (s.ebPt f)).bind ebNormal

/-- `EB.SIM` (46_eb R308, by the build's variant). -/
def execEbSim (rd ra rb rc re : Reg) (s : State) : Host.Outcome State Fault Refusal :=
  command 0x91 (ebChecks s true [s.eb[ra], s.eb[rc]] [s.n[rb], s.n[re]])
    (fun s =>
      s.ebResult [s.eb[ra], s.eb[rc]] rd
        (s.ebSimReg s.build.ebSim s.n[rb].val s.eb[ra] s.n[re].val s.eb[rc]) 0) s

/-- `EB.SIM.BASIC` (46_eb R309). -/
def execEbSimBasic (rd ra rb rc re : Reg) (s : State) : Host.Outcome State Fault Refusal :=
  command 0x91 (ebChecks s (decide (.basic ∈ s.build.ebSimSet)) [s.eb[ra], s.eb[rc]] [s.n[rb], s.n[re]])
    (fun s =>
      s.ebResult [s.eb[ra], s.eb[rc]] rd
        (s.ebSimReg .basic s.n[rb].val s.eb[ra] s.n[re].val s.eb[rc]) 0) s

/-- `EB.SIM.TRICK` (46_eb R310). -/
def execEbSimTrick (rd ra rb rc re : Reg) (s : State) : Host.Outcome State Fault Refusal :=
  command 0x91 (ebChecks s (decide (.trick ∈ s.build.ebSimSet)) [s.eb[ra], s.eb[rc]] [s.n[rb], s.n[re]])
    (fun s =>
      s.ebResult [s.eb[ra], s.eb[rc]] rd
        (s.ebSimReg .trick s.n[rb].val s.eb[ra] s.n[re].val s.eb[rc]) 0) s

/-- `EB.SIM.INTER` (46_eb R311). -/
def execEbSimInter (rd ra rb rc re : Reg) (s : State) : Host.Outcome State Fault Refusal :=
  command 0x91 (ebChecks s (decide (.inter ∈ s.build.ebSimSet)) [s.eb[ra], s.eb[rc]] [s.n[rb], s.n[re]])
    (fun s =>
      s.ebResult [s.eb[ra], s.eb[rc]] rd
        (s.ebSimReg .inter s.n[rb].val s.eb[ra] s.n[re].val s.eb[rc]) 0) s

/-- `EB.SIM.JOINT` (46_eb R312). -/
def execEbSimJoint (rd ra rb rc re : Reg) (s : State) : Host.Outcome State Fault Refusal :=
  command 0x91 (ebChecks s (decide (.joint ∈ s.build.ebSimSet)) [s.eb[ra], s.eb[rc]] [s.n[rb], s.n[re]])
    (fun s =>
      s.ebResult [s.eb[ra], s.eb[rc]] rd
        (s.ebSimReg .joint s.n[rb].val s.eb[ra] s.n[re].val s.eb[rc]) 0) s

end Sys2Proof.Machine
end

