-- ==== Sys2Proof/Machine/Ep.lean ====
section
/-! DEFINITION. The prime-curve commands (45_ep R240 to R269). -/

namespace Sys2Proof.Machine

/-- `pt(EP[r])` of a register value, in the context (45_ep R242). -/
def State.epPt (s : State) (e : PointReg) : Pt := epPoint s.build s.ctx.fpP e

/-- The operations of the context's prime curve (45_ep R240). -/
def State.epOps (s : State) : PtOps Pt := Machine.epOps s.ctx.fpP (s.valFp s.ctx.ep.a)

/-- The normalised register value of a point (45_ep R255). -/
def State.epNormal (s : State) (P : Pt) : Option PointReg := Machine.epNormal s.build s.ctx.fpP s.ctx.fpOne P

/-- Some canonical representative of a point: Z is a free non-zero residue and, where Z = 1, `norm` a free
bit (45_ep R244, 93 U1, log 11). -/
def State.epSome (s : State) (P : Pt) : Option PointReg :=
  epRepresentative s.build s.ctx.fpP s.ctx.fpOne (1 + s.draw 0 % (s.ctx.fpP - 1)) (s.draw 1 % 2 == 1) P

/-- `EP[rd] <-` a representative of P (45_ep R244); an unspecified value when a source is off the curve
(45_ep R241). -/
def State.putEpSome (s : State) (es : List PointReg) (rd : Reg) (P : Pt) : State :=
  s.epResult es rd (s.epSome P) 2

/-- The register value that `EP.NEG` writes (45_ep R245). -/
def epNegReg (p : Nat) (e : PointReg) : PointReg :=
  if e.z = 0 then PointReg.infinity else ⟨e.x, negMod p e.y, e.z, e.norm⟩

/-- `EP.NEG` (45_ep R245). -/
def execEpNeg (rd ra : Reg) (s : State) : Host.Outcome State Fault Refusal :=
  command 0x60 (epChecks s true [s.ep[ra]] [])
    (fun s => s.epResult [s.ep[ra]] rd (some (epNegReg s.ctx.fpP s.ep[ra])) 0) s

/-- `EP.DBL` (45_ep R246). -/
def execEpDbl (rd ra : Reg) (s : State) : Host.Outcome State Fault Refusal :=
  command 0x61 (epChecks s true [s.ep[ra]] [])
    (fun s => s.putEpSome [s.ep[ra]] rd (s.epOps.dbl (s.epPt s.ep[ra]))) s

/-- `EP.ADD` (45_ep R247, R249, R250). -/
def execEpAdd (rd ra rb : Reg) (s : State) : Host.Outcome State Fault Refusal :=
  command 0x62 (epChecks s true [s.ep[ra], s.ep[rb]] [])
    (fun s =>
      s.putEpSome [s.ep[ra], s.ep[rb]] rd (s.epOps.add (s.epPt s.ep[ra]) (s.epPt s.ep[rb]))) s

/-- The register value that `EP.NORM` writes (45_ep R248). -/
def State.epNormReg (s : State) (e : PointReg) : Option PointReg :=
  if e.z = 0 then some PointReg.infinity else if e.norm then some e else s.epNormal (s.epPt e)

/-- `EP.NORM` (45_ep R248). -/
def execEpNorm (rd ra : Reg) (s : State) : Host.Outcome State Fault Refusal :=
  command 0x63 (epChecks s true [s.ep[ra]] [])
    (fun s => s.epResult [s.ep[ra]] rd (s.epNormReg s.ep[ra]) 0) s

/-! Scalar multiplication (45_ep R255 to R262). -/

/-- [k]pt(E), normalised, by method `v` (45_ep R255). -/
def State.epMulReg (s : State) (v : EpMul) (k : Int) (e : PointReg) : Option PointReg :=
  s.epNormal (mulSigned s.epOps (epMulBy v s.epOps s.build.epWidth) k (s.epPt e))

/-- `EP.MUL` (45_ep R255, by the build's variant). -/
def execEpMul (rd ra rb : Reg) (s : State) : Host.Outcome State Fault Refusal :=
  command 0x70 (epChecks s true [s.ep[ra]] [s.n[rb]])
    (fun s => s.epResult [s.ep[ra]] rd (s.epMulReg s.build.epMul s.n[rb].val s.ep[ra]) 0) s

/-- `EP.MUL.BASIC` (45_ep R257). -/
def execEpMulBasic (rd ra rb : Reg) (s : State) : Host.Outcome State Fault Refusal :=
  command 0x70 (epChecks s (decide (.basic ∈ s.build.epMulSet)) [s.ep[ra]] [s.n[rb]])
    (fun s => s.epResult [s.ep[ra]] rd (s.epMulReg .basic s.n[rb].val s.ep[ra]) 0) s

/-- `EP.MUL.LWNAF` (45_ep R258). -/
def execEpMulLwnaf (rd ra rb : Reg) (s : State) : Host.Outcome State Fault Refusal :=
  command 0x70 (epChecks s (decide (.lwnaf ∈ s.build.epMulSet)) [s.ep[ra]] [s.n[rb]])
    (fun s => s.epResult [s.ep[ra]] rd (s.epMulReg .lwnaf s.n[rb].val s.ep[ra]) 0) s

/-- `EP.MUL.RWNAF` (45_ep R259). -/
def execEpMulRwnaf (rd ra rb : Reg) (s : State) : Host.Outcome State Fault Refusal :=
  command 0x70 (epChecks s (decide (.rwnaf ∈ s.build.epMulSet)) [s.ep[ra]] [s.n[rb]])
    (fun s => s.epResult [s.ep[ra]] rd (s.epMulReg .rwnaf s.n[rb].val s.ep[ra]) 0) s

/-! Two-scalar multiplication (45_ep R263 to R268). -/

/-- [k]pt(E) + [l]pt(F), normalised, by method `v` (45_ep R263). -/
def State.epSimReg (s : State) (v : SimMethod) (k : Int) (e : PointReg) (l : Int) (f : PointReg) :
    Option PointReg :=
  s.epNormal (epSimBy v s.build.epMul s.epOps s.build.epWidth s.build.trickWidth k (s.epPt e) l
    (s.epPt f))

/-- `EP.SIM` (45_ep R263, by the build's variant). -/
def execEpSim (rd ra rb rc re : Reg) (s : State) : Host.Outcome State Fault Refusal :=
  command 0x71 (epChecks s true [s.ep[ra], s.ep[rc]] [s.n[rb], s.n[re]])
    (fun s =>
      s.epResult [s.ep[ra], s.ep[rc]] rd
        (s.epSimReg s.build.epSim s.n[rb].val s.ep[ra] s.n[re].val s.ep[rc]) 0) s

/-- `EP.SIM.BASIC` (45_ep R264). -/
def execEpSimBasic (rd ra rb rc re : Reg) (s : State) : Host.Outcome State Fault Refusal :=
  command 0x71 (epChecks s (decide (.basic ∈ s.build.epSimSet)) [s.ep[ra], s.ep[rc]] [s.n[rb], s.n[re]])
    (fun s =>
      s.epResult [s.ep[ra], s.ep[rc]] rd
        (s.epSimReg .basic s.n[rb].val s.ep[ra] s.n[re].val s.ep[rc]) 0) s

/-- `EP.SIM.TRICK` (45_ep R265). -/
def execEpSimTrick (rd ra rb rc re : Reg) (s : State) : Host.Outcome State Fault Refusal :=
  command 0x71 (epChecks s (decide (.trick ∈ s.build.epSimSet)) [s.ep[ra], s.ep[rc]] [s.n[rb], s.n[re]])
    (fun s =>
      s.epResult [s.ep[ra], s.ep[rc]] rd
        (s.epSimReg .trick s.n[rb].val s.ep[ra] s.n[re].val s.ep[rc]) 0) s

/-- `EP.SIM.INTER` (45_ep R266). -/
def execEpSimInter (rd ra rb rc re : Reg) (s : State) : Host.Outcome State Fault Refusal :=
  command 0x71 (epChecks s (decide (.inter ∈ s.build.epSimSet)) [s.ep[ra], s.ep[rc]] [s.n[rb], s.n[re]])
    (fun s =>
      s.epResult [s.ep[ra], s.ep[rc]] rd
        (s.epSimReg .inter s.n[rb].val s.ep[ra] s.n[re].val s.ep[rc]) 0) s

/-- `EP.SIM.JOINT` (45_ep R267). -/
def execEpSimJoint (rd ra rb rc re : Reg) (s : State) : Host.Outcome State Fault Refusal :=
  command 0x71 (epChecks s (decide (.joint ∈ s.build.epSimSet)) [s.ep[ra], s.ep[rc]] [s.n[rb], s.n[re]])
    (fun s =>
      s.epResult [s.ep[ra], s.ep[rc]] rd
        (s.epSimReg .joint s.n[rb].val s.ep[ra] s.n[re].val s.ep[rc]) 0) s

end Sys2Proof.Machine
end

