-- ==== Sys2Proof/Machine/Fp.lean ====
section
/-! DEFINITION. The prime-field commands (43_fp R160 to R187). -/

namespace Sys2Proof.Machine

/-! The datapath with the parameters of the context. -/

/-- `comba_mul(a, b)` (43_fp R162). -/
def State.comba (s : State) (a b : Nat) : Nat := Machine.comba s.build.W s.build.fpDigs a b

/-- `rdcn(a)` (43_fp R163). -/
def State.rdcn (s : State) (a : Nat) : Nat :=
  Machine.rdcn s.build.W s.build.fpDigs s.ctx.fpP s.ctx.fpU a

/-- `rdcs(a)` (43_fp R164). -/
def State.rdcs (s : State) (a : Nat) : Nat :=
  Machine.rdcs s.build s.ctx.fpP s.ctx.sfTop.toNat
    (sparseTail (s.ctx.sfTerms.take s.ctx.sfCnt.toNat)) a

/-- `rdc(a)`: the build's back-end (43_fp R182). -/
def State.rdc (s : State) (a : Nat) : Nat :=
  match s.build.fpRdc with
  | .monty => s.rdcn a
  | .sparse => s.rdcs a

/-- `FP.MUL` on digit vectors (43_fp R170). -/
def State.mulFp (s : State) (a b : Nat) : Nat := s.rdc (s.comba a b)

/-- The digits of the inverse of `a` (43_fp R172); none where there is no inverse, which no prime p allows
for a ≠ 0 (70_reset R368). -/
def State.invFp (s : State) (a : Nat) : Option Nat := (invMod s.ctx.fpP (s.valFp a)).map s.repFp

/-- `FP.ADD` (43_fp R165). -/
def execFpAdd (rd ra rb : Reg) (s : State) : Host.Outcome State Fault Refusal :=
  command 0x40 (fpChecks s [s.fp[ra], s.fp[rb]])
    (fun s => s.putFpOr rd (some (addMod s.ctx.fpP s.fp[ra] s.fp[rb]))) s

/-- `FP.SUB` (43_fp R166). -/
def execFpSub (rd ra rb : Reg) (s : State) : Host.Outcome State Fault Refusal :=
  command 0x41 (fpChecks s [s.fp[ra], s.fp[rb]])
    (fun s => s.putFpOr rd (some (subMod s.ctx.fpP s.fp[ra] s.fp[rb]))) s

/-- `FP.NEG` (43_fp R167). -/
def execFpNeg (rd ra : Reg) (s : State) : Host.Outcome State Fault Refusal :=
  command 0x42 (fpChecks s [s.fp[ra]])
    (fun s => s.putFpOr rd (some (negMod s.ctx.fpP s.fp[ra]))) s

/-- `FP.DBL` (43_fp R168). -/
def execFpDbl (rd ra : Reg) (s : State) : Host.Outcome State Fault Refusal :=
  command 0x43 (fpChecks s [s.fp[ra]])
    (fun s => s.putFpOr rd (some (addMod s.ctx.fpP s.fp[ra] s.fp[ra]))) s

/-- `FP.HLV` (43_fp R169). -/
def execFpHlv (rd ra : Reg) (s : State) : Host.Outcome State Fault Refusal :=
  command 0x44 (fpChecks s [s.fp[ra]])
    (fun s => s.putFpOr rd (some (halveMod s.ctx.fpP s.fp[ra]))) s

/-- `FP.MUL` (43_fp R170). -/
def execFpMul (rd ra rb : Reg) (s : State) : Host.Outcome State Fault Refusal :=
  command 0x45 (fpChecks s [s.fp[ra], s.fp[rb]])
    (fun s => s.putFpOr rd (some (s.rdc (s.comba s.fp[ra] s.fp[rb])))) s

/-- `FP.SQR` (43_fp R171). -/
def execFpSqr (rd ra : Reg) (s : State) : Host.Outcome State Fault Refusal :=
  command 0x46 (fpChecks s [s.fp[ra]])
    (fun s => s.putFpOr rd (some (s.rdc (s.comba s.fp[ra] s.fp[ra])))) s

/-- `FP.INV` (43_fp R172). -/
def execFpInv (rd ra : Reg) (s : State) : Host.Outcome State Fault Refusal :=
  command 0x47 (fpChecks s [s.fp[ra]] ++ [needInput (!(s.fp[ra] == 0))])
    (fun s => s.putFpOr rd (s.invFp s.fp[ra])) s

/-! Exponentiation (43_fp R173, R178). -/

/-- The ladder of 43_fp R178 over the bits of `e` below position `t`, from the top. -/
def State.ladderFp (s : State) (e : Nat) : Nat → Nat → Nat → Nat
  | 0, r0, _ => r0
  | t + 1, r0, r1 =>
    if e / 2 ^ t % 2 = 0 then s.ladderFp e t (s.mulFp r0 r0) (s.mulFp r0 r1)
    else s.ladderFp e t (s.mulFp r0 r1) (s.mulFp r1 r1)

/-- The base of the power and the exponent made non-negative: the inverse for e < 0 (43_fp R173). -/
def State.expBase (s : State) (a : Nat) (e : Int) : Option Nat :=
  if e < 0 then s.invFp a else some a

/-- a^|e| by method `v`, on digit vectors (43_fp R173, R178). -/
def State.powFp (s : State) (v : FpExp) (e a : Nat) : Nat :=
  match v with
  | .basic => s.repFp (powMod s.ctx.fpP (s.valFp a) e)
  | .monty => s.ladderFp e (bitlen e) (s.repFp (1 % s.ctx.fpP)) a

/-- The tests of an exponentiation; `own` is the presence of the variant (43_fp R160, R173). -/
def expChecks (s : State) (own : Bool) (a : Nat) (e : BigReg) : List Check :=
  [needConfig (fpReady s), needConfig own, needInput (fpCanon s a), needInput e.canon,
   needInput (!(decide (e.val < 0) && a == 0))]

/-- `FP.EXP` (43_fp R173), by the build's method. -/
def execFpExp (rd ra rb : Reg) (s : State) : Host.Outcome State Fault Refusal :=
  command 0x48 (expChecks s true s.fp[ra] s.n[rb])
    (fun s =>
      s.putFpOr rd ((s.expBase s.fp[ra] s.n[rb].val).map (s.powFp s.build.fpExp s.n[rb].mag))) s

/-- `FP.EXP.MONTY` (43_fp R178). -/
def execFpExpMonty (rd ra rb : Reg) (s : State) : Host.Outcome State Fault Refusal :=
  command 0x48 (expChecks s s.build.expMonty s.fp[ra] s.n[rb])
    (fun s => s.putFpOr rd ((s.expBase s.fp[ra] s.n[rb].val).map (s.powFp .monty s.n[rb].mag))) s

/-- The root that `FP.SRT` writes: a free choice between y and p − y (43_fp R174, 93 U4, log 12). -/
def State.chooseRoot (s : State) (y : Nat) : Nat :=
  if s.draw 0 % 2 = 1 then negMod s.ctx.fpP y else y

/-- `FP.SRT` (43_fp R174). In a false context, and where x has neither a root that the method finds nor
Euler's proof that it has none, which no prime p allows, the result and `FLAGS.T` are free values (70_reset
R368, 93 U10, log 10). -/
def execFpSrt (rd ra : Reg) (s : State) : Host.Outcome State Fault Refusal :=
  command 0x49 (fpChecks s [s.fp[ra]])
    (fun s =>
      match given (fpTrue s) (sqrtMod s.ctx.fpP (s.valFp s.fp[ra])) with
      | some y => ((s.putFp rd (s.repFp (s.chooseRoot y))).setT true).drawn 1
      | none =>
        if fpTrue s && isNonSquare s.ctx.fpP (s.valFp s.fp[ra]) then s.setT false
        else ((s.putFp rd (s.draw 0 % s.ctx.fpP)).setT (s.draw 1 % 2 == 1)).drawn 2) s

/-- `FP.CMP` (43_fp R175). -/
def execFpCmp (ra rb : Reg) (s : State) : Host.Outcome State Fault Refusal :=
  command 0x4A (fpChecks s [s.fp[ra], s.fp[rb]])
    (fun s => s.setCmpOr (fpTrue s) (compareNat s.fp[ra] s.fp[rb])) s

/-- `FP.CONV` (43_fp R176): `rdcn(comba_mul(a, RR))` under `MONTY`. -/
def execFpConv (rd ra : Reg) (s : State) : Host.Outcome State Fault Refusal :=
  command 0x4B (fpChecks s [s.fp[ra]])
    (fun s =>
      s.putFpOr rd (match s.build.fpRdc with
        | .monty => some (s.rdcn (s.comba s.fp[ra] s.ctx.rr))
        | .sparse => some s.fp[ra])) s

/-- `FP.BACK` (43_fp R177): `rdcn` of the value extended with zero digits under `MONTY`. -/
def execFpBack (rd ra : Reg) (s : State) : Host.Outcome State Fault Refusal :=
  command 0x4C (fpChecks s [s.fp[ra]])
    (fun s =>
      s.putFpOr rd (match s.build.fpRdc with
        | .monty => some (s.rdcn s.fp[ra])
        | .sparse => some s.fp[ra])) s

/-- `FP.MULN` (43_fp R179). -/
def execFpMuln (rd ra rb : Reg) (s : State) : Host.Outcome State Fault Refusal :=
  command 0x4D (fpChecks s [s.fp[ra], s.fp[rb]])
    (fun s => s.putDvOr (fpTrue s) rd (s.comba s.fp[ra] s.fp[rb])) s

/-- The digits `a[2n .. DV_DIGS−1]` are zero (43_fp R186, R187, 44_fb R206). -/
def highDigitsZero (W n a : Nat) : Bool := a / 2 ^ (W * (2 * n)) == 0

/-- The tests of 43_fp R186: unit and context, the presence `own` of the variant (30_encoding R96), no digit
above 2n, `val(a) < R·p`. -/
def rdcnChecks (s : State) (own : Bool) (a : Nat) : List Check :=
  [needConfig (fpReady s), needConfig own, needInput (highDigitsZero s.build.W s.build.fpDigs a),
   needInput (decide (a / bigR s.build < s.ctx.fpP))]

/-- The tests of 43_fp R187: unit and context, the presence `own` of the variant (30_encoding R96), a sparse
form, no digit above 2n. -/
def rdcsChecks (s : State) (own : Bool) (a : Nat) : List Check :=
  [needConfig (fpReady s), needConfig own, needConfig (!(s.ctx.sfCnt == 0)),
   needInput (highDigitsZero s.build.W s.build.fpDigs a)]

/-- `FP.RDC` (43_fp R185): the tests and the reduction of the build's back-end. -/
def execFpRdc (rd ra : Reg) (s : State) : Host.Outcome State Fault Refusal :=
  command 0x4E
    (match s.build.fpRdc with
      | .monty => rdcnChecks s true s.dv[ra]
      | .sparse => rdcsChecks s true s.dv[ra])
    (fun s => s.putFpOr rd (some (s.rdc s.dv[ra]))) s

/-- `FP.RDCN` (43_fp R186). "Available in both builds" is read as: `FP_RDC` does not decide whether it is there;
whether it is, a build chooses as for every named variant (92 D28). DEDUCED (log 20). -/
def execFpRdcn (rd ra : Reg) (s : State) : Host.Outcome State Fault Refusal :=
  command 0x4E (rdcnChecks s (decide (.monty ∈ s.build.rdcSet)) s.dv[ra])
    (fun s => s.putFpOr rd (some (s.rdcn s.dv[ra]))) s

/-- `FP.RDCS` (43_fp R187). -/
def execFpRdcs (rd ra : Reg) (s : State) : Host.Outcome State Fault Refusal :=
  command 0x4E (rdcsChecks s (decide (.sparse ∈ s.build.rdcSet)) s.dv[ra])
    (fun s => s.putFpOr rd (some (s.rdcs s.dv[ra]))) s

end Sys2Proof.Machine
end

