-- ==== Sys2Proof/Machine/Fb.lean ====
section
/-! DEFINITION. The binary-field commands (44_fb R200 to R219). -/

namespace Sys2Proof.Machine

/-- The product in the context's field (44_fb R203). -/
def State.mulFb (s : State) (a b : Nat) : Nat := fbMulP s.build.m (fbPoly s) a b

/-- `FB.ADD` (44_fb R202). -/
def execFbAdd (rd ra rb : Reg) (s : State) : Host.Outcome State Fault Refusal :=
  command 0x50 (fbChecks s true [s.fb[ra], s.fb[rb]])
    (fun s => s.putFbOr rd (some (s.fb[ra] ^^^ s.fb[rb]))) s

/-- `FB.MUL` (44_fb R203). -/
def execFbMul (rd ra rb : Reg) (s : State) : Host.Outcome State Fault Refusal :=
  command 0x51 (fbChecks s true [s.fb[ra], s.fb[rb]])
    (fun s => s.putFbOr rd (some (s.mulFb s.fb[ra] s.fb[rb]))) s

/-- `FB.SQR` (44_fb R204). -/
def execFbSqr (rd ra : Reg) (s : State) : Host.Outcome State Fault Refusal :=
  command 0x52 (fbChecks s true [s.fb[ra]])
    (fun s => s.putFbOr rd (some (s.mulFb s.fb[ra] s.fb[ra]))) s

/-- `FB.MULN` (44_fb R205). -/
def execFbMuln (rd ra rb : Reg) (s : State) : Host.Outcome State Fault Refusal :=
  command 0x53 (fbChecks s true [s.fb[ra], s.fb[rb]])
    (fun s => s.putDvOr (fbTrue s) rd (pmul s.fb[ra] s.fb[rb])) s

/-- `FB.RDC` (44_fb R206). -/
def execFbRdc (rd ra : Reg) (s : State) : Host.Outcome State Fault Refusal :=
  command 0x54
    [needConfig (fbReady s), needInput (highDigitsZero s.build.W s.build.fbDigs s.dv[ra])]
    (fun s => s.putFbOr rd (some (pmod s.build.m (fbPoly s) s.dv[ra]))) s

/-- `FB.SRT` (44_fb R207). -/
def execFbSrt (rd ra : Reg) (s : State) : Host.Outcome State Fault Refusal :=
  command 0x55 (fbChecks s true [s.fb[ra]])
    (fun s => s.putFbOr rd (fbRoot s.build.m (fbPoly s) s.fb[ra])) s

/-- `FB.TRC` (44_fb R208): `FLAGS.T` is the polynomial 0 or 1; a free bit in a false context, also where that
makes it neither (70_reset R368, 93 U10, log 10). -/
def execFbTrc (ra : Reg) (s : State) : Host.Outcome State Fault Refusal :=
  command 0x56 (fbChecks s true [s.fb[ra]])
    (fun s =>
      match given (fbTrue s) (fbTraceBit s.build.m (fbPoly s) s.fb[ra]) with
      | some b => s.setT b
      | none => (s.setT (s.draw 0 % 2 == 1)).drawn 1) s

/-- `FB.SLV` (44_fb R209). -/
def execFbSlv (rd ra : Reg) (s : State) : Host.Outcome State Fault Refusal :=
  command 0x57 (fbChecks s (s.build.m % 2 == 1) [s.fb[ra]])
    (fun s => s.putFbOr rd (fbSolve s.build.m (fbPoly s) s.fb[ra])) s

/-- `FB.CMP` (44_fb R210). -/
def execFbCmp (ra rb : Reg) (s : State) : Host.Outcome State Fault Refusal :=
  command 0x5A (fbChecks s true [s.fb[ra], s.fb[rb]])
    (fun s => s.setCmpOr (fbTrue s) (compareNat s.fb[ra] s.fb[rb])) s

/-! Inversion (44_fb R211 to R219). -/

/-- The configuration condition of a variant: m odd for `BASIC` (44_fb R212). -/
def invAllowed (b : Build) (v : FbInv) : Bool := !(v == .basic) || b.m % 2 == 1

/-- The tests of an inversion by variant `v`; `own` is its presence (44_fb R211). -/
def invChecks (s : State) (v : FbInv) (own : Bool) (a : Nat) : List Check :=
  fbChecks s (own && invAllowed s.build v) [a] ++ [needInput (!(a == 0))]

/-- Inversion by variant `v` in the context's field (44_fb R211). -/
def State.invFb (s : State) (v : FbInv) (a : Nat) : Option Nat :=
  invBy v s.build.chain s.build.m (fbPoly s) a

/-- `FB.INV` (44_fb R211), by the build's variant. -/
def execFbInv (rd ra : Reg) (s : State) : Host.Outcome State Fault Refusal :=
  command 0x58 (invChecks s s.build.fbInv true s.fb[ra])
    (fun s => s.putFbOr rd (s.invFb s.build.fbInv s.fb[ra])) s

/-- `FB.INV.BASIC` (44_fb R212). -/
def execFbInvBasic (rd ra : Reg) (s : State) : Host.Outcome State Fault Refusal :=
  command 0x58 (invChecks s .basic (decide (.basic ∈ s.build.fbInvSet)) s.fb[ra])
    (fun s => s.putFbOr rd (s.invFb .basic s.fb[ra])) s

/-- `FB.INV.BINAR` (44_fb R213). -/
def execFbInvBinar (rd ra : Reg) (s : State) : Host.Outcome State Fault Refusal :=
  command 0x58 (invChecks s .binar (decide (.binar ∈ s.build.fbInvSet)) s.fb[ra])
    (fun s => s.putFbOr rd (s.invFb .binar s.fb[ra])) s

/-- `FB.INV.ALMOS` (44_fb R214). -/
def execFbInvAlmos (rd ra : Reg) (s : State) : Host.Outcome State Fault Refusal :=
  command 0x58 (invChecks s .almos (decide (.almos ∈ s.build.fbInvSet)) s.fb[ra])
    (fun s => s.putFbOr rd (s.invFb .almos s.fb[ra])) s

/-- `FB.INV.EXGCD` (44_fb R215). -/
def execFbInvExgcd (rd ra : Reg) (s : State) : Host.Outcome State Fault Refusal :=
  command 0x58 (invChecks s .exgcd (decide (.exgcd ∈ s.build.fbInvSet)) s.fb[ra])
    (fun s => s.putFbOr rd (s.invFb .exgcd s.fb[ra])) s

/-- `FB.INV.ITOHT` (44_fb R216). -/
def execFbInvItoht (rd ra : Reg) (s : State) : Host.Outcome State Fault Refusal :=
  command 0x58 (invChecks s .itoht (decide (.itoht ∈ s.build.fbInvSet)) s.fb[ra])
    (fun s => s.putFbOr rd (s.invFb .itoht s.fb[ra])) s

/-- `FB.INV.LOWER` (44_fb R217). -/
def execFbInvLower (rd ra : Reg) (s : State) : Host.Outcome State Fault Refusal :=
  command 0x58 (invChecks s .lower (decide (.lower ∈ s.build.fbInvSet)) s.fb[ra])
    (fun s => s.putFbOr rd (s.invFb .lower s.fb[ra])) s

/-- The n sources `FB[ra] .. FB[ra+n−1]` (44_fb R218). -/
def State.fbRange (s : State) (ra : Reg) (n : Nat) : List Nat :=
  (List.range n).map fun i => s.fb[ra + Fin.ofNat 16 i]

/-- `FB[rd + i] <- r[i]` (44_fb R218). -/
def State.putFbRange (s : State) (rd : Reg) : List Nat → State
  | [] => s
  | v :: vs => (s.putFb rd v).putFbRange (rd + 1) vs

/-- `FB.INV.SIM` (44_fb R218). `cnt` encodes n − 1 (30_encoding R94). The one inversion is that of R211, by the
build's variant; so in a build whose `FB_INV` is `BASIC`, with m even, the command takes the `NoValidConfig` of
`FB.INV` (R200, R212; DEDUCED, log 27). In a false context, also where that inversion finds nothing, every
result is a free value (93 U10, log 10). -/
def execFbInvSim (rd ra : Reg) (cnt : Nib) (s : State) : Host.Outcome State Fault Refusal :=
  command 0x59
    (needInput (simRange rd ra cnt) ::
      (fbChecks s (invAllowed s.build s.build.fbInv) (s.fbRange ra (cnt.val + 1)) ++
        (s.fbRange ra (cnt.val + 1)).map fun a => needInput (!(a == 0))))
    (fun s =>
      let m := s.build.m
      let f := fbPoly s
      let as := s.fbRange ra (cnt.val + 1)
      match given (fbTrue s) (s.invFb s.build.fbInv ((simProducts m f as 1).getLastD 0)) with
      | some t => s.putFbRange rd (simInverses m f as t)
      | none =>
        (s.putFbRange rd ((List.range (cnt.val + 1)).map fun j => s.draw j % 2 ^ m)).drawn
          (cnt.val + 1)) s

end Sys2Proof.Machine
end

