-- ==== Sys2Proof/Machine/Rec.lean ====
section
/-! DEFINITION. The recoding commands (42_rec R140 to R152). -/

namespace Sys2Proof.Machine

/-- The tests on the scalars of a recoding: canonical, then not negative (42_rec R140). -/
def scalarChecks (ks : List BigReg) : List Check :=
  ks.map (fun k => needInput k.canon) ++ ks.map (fun k => needInput (decide (0 ≤ k.val)))

/-- `REC.NAF` (42_rec R143). -/
def execRecNaf (rd ra : Reg) (w : Nib) (s : State) : Host.Outcome State Fault Refusal :=
  command 0x30 (needInput (signedWidth w) :: scalarChecks [s.n[ra]])
    (fun s => s.putRc rd (naf w.val s.n[ra].mag)) s

/-- `REC.JSF` (42_rec R145): the u digits to `RC[rd]`, the v digits to `RC[rd + 1]`. -/
def execRecJsf (rd ra rb : Reg) (s : State) : Host.Outcome State Fault Refusal :=
  command 0x31 (needInput (rd.val % 2 == 0) :: scalarChecks [s.n[ra], s.n[rb]])
    (fun s =>
      let d := jsf s.n[ra].mag s.n[rb].mag
      (s.putRc rd (d.map Prod.fst)).putRc (rd + 1) (d.map Prod.snd)) s

/-- `REC.TNAF` (42_rec R148): a free choice among the sequences that meet its conditions (log 13). -/
def execRecTnaf (rd ra : Reg) (w : Nib) (s : State) : Host.Outcome State Fault Refusal :=
  command 0x32
    ([needInput (signedWidth w), needConfig (fbReady s), needConfig s.ctx.ebFlags.kbltz] ++
      scalarChecks [s.n[ra]])
    (fun s =>
      (s.putRc rd (tnaf s w.val s.n[ra].mag)).drawn (1 + s.build.m + s.build.tnafExtra)) s

/-- `REC.WIN` (42_rec R150). -/
def execRecWin (rd ra : Reg) (w : Nib) (s : State) : Host.Outcome State Fault Refusal :=
  command 0x33 (needInput (unsignedWidth w) :: scalarChecks [s.n[ra]])
    (fun s => s.putRc rd ((win w.val s.n[ra].mag).map Int.ofNat)) s

/-- `REC.REG` (42_rec R152): "always raises `NoValidConfig` ... after the operand check". -/
def execRecReg (_rd _ra : Reg) (w : Nib) (s : State) : Host.Outcome State Fault Refusal :=
  command 0x34 [needInput (signedWidth w), needConfig false] id s

end Sys2Proof.Machine
end

