-- ==== Sys2Proof/Machine/Sys.lean ====
section
/-! DEFINITION. The system commands `NOP`, `CTX.INIT`, `CLRERR` (47_sys R320 to R323). -/

namespace Sys2Proof.Machine

/-- `NOP` (47_sys R321). -/
def execNop (s : State) : Host.Outcome State Fault Refusal := command 0x00 [] id s

/-- `CLRERR` (47_sys R323). -/
def execClrerr (s : State) : Host.Outcome State Fault Refusal := command 0x02 [] clearFault s

/-! `CTX.INIT` (47_sys R322). -/

/-- "s_top > s[0] > ... > s[t−1]", for a list of terms below `top`. -/
def descending : Nat → List SparseTerm → Bool
  | _, [] => true
  | top, t :: ts => decide (t.s.toNat < top) && descending t.s.toNat ts

/-- The staged terms, `cnt` of them (10_state R47). -/
def Ctx.sparseTerms (c : Ctx) : List SparseTerm := c.sfTerms.take c.sfCnt.toNat

/-- "2^s_top + Σ eps[i]·2^s[i] = p" (47_sys R322). -/
def Ctx.sparseIsP (c : Ctx) : Bool :=
  (2 : Int) ^ c.sfTop.toNat + sparseTail c.sparseTerms == (c.fpP : Int)

/-- The constants of the curve that are field elements are all in range. -/
def CurveCtx.below (c : CurveCtx) (q : Nat) : Bool :=
  decide (c.a < q) && decide (c.b < q) && decide (c.gx < q) && decide (c.gy < q)

/-- f is a trinomial or a pentanomial of degree m (10_state R49). -/
def Ctx.polyShape (c : Ctx) (m : Nat) : Bool :=
  (c.fb == 0 && c.fc == 0 && decide (0 < c.fa.toNat) && decide (c.fa.toNat < m)) ||
  (decide (c.fa.toNat < m) && decide (c.fb.toNat < c.fa.toNat) &&
    decide (c.fc.toNat < c.fb.toNat) && decide (0 < c.fc.toNat))

/-- The tests of the prime side on staged values (47_sys R322). -/
def ctxFpChecks (s : State) : List Check :=
  [needInput (s.ctx.fpP % 2 == 1 && bitlen s.ctx.fpP == s.build.fpBits),
   needInput (decide (s.ctx.sfCnt.toNat ≤ s.build.sfMax)),
   needInput (s.ctx.sfCnt == 0 || descending s.ctx.sfTop.toNat s.ctx.sparseTerms),
   needInput (s.ctx.sfCnt == 0 || s.ctx.sparseIsP),
   needInput (s.ctx.ep.below s.ctx.fpP)]

/-- The tests of the binary side on staged values (47_sys R322). -/
def ctxFbChecks (s : State) : List Check :=
  [needInput (s.ctx.polyShape s.build.m),
   needInput (s.ctx.eb.below (2 ^ s.build.m)),
   needInput (!s.ctx.ebFlags.kbltz || (decide (s.ctx.eb.a ≤ 1) && decide (s.ctx.eb.b ≤ 1)))]

/-- The tests of `CTX.INIT`, in its order (47_sys R322). -/
def ctxChecks (s : State) : List Check :=
  [needConfig (!s.status.init),
   needConfig (!(s.build.hasFp && s.build.fpRdc == .sparse && s.ctx.sfCnt == 0))] ++
  (if s.build.hasFp then ctxFpChecks s else []) ++
  (if s.build.hasFb then ctxFbChecks s else [])

/-- `FP_U`, `FP_ONE` and the hidden `RR` (47_sys R322, 10_state R46, R48). -/
def deriveFp (b : Build) (c : Ctx) : Ctx :=
  { c with
    fpU := montU b.W c.fpP
    fpOne := match b.fpRdc with | .monty => bigR b % c.fpP | .sparse => 1
    rr := bigR b ^ 2 % c.fpP }

/-- The writes of `CTX.INIT` (47_sys R322). The constants of `CTX.TNAF` and the content of `CTX.FBT` are
not given by the spec (10_state R55, R56): free values, hidden and read by nothing (log 15). -/
def ctxInitWrites (s : State) : State :=
  let s := if s.build.hasFp then { s with ctx := deriveFp s.build s.ctx } else s
  let s :=
    if s.build.hasFb && s.ctx.ebFlags.kbltz then
      { s with ctx := { s.ctx with tnaf := ⟨s.draw 0, s.draw 1, s.draw 2⟩ } }.drawn 3
    else s
  let s := if s.build.hasFbt then { s with ctx := { s.ctx with fbt := some (s.draw 0) } }.drawn 1 else s
  { s with status := { s.status with init := true } }

/-- `CTX.INIT` (47_sys R322). -/
def execCtxInit (s : State) : Host.Outcome State Fault Refusal :=
  command 0x01 (ctxChecks s) ctxInitWrites s

end Sys2Proof.Machine
end

