-- ==== Sys2Proof/Machine/Dispatch.lean ====
section
/-! DEFINITION. The dispatch: one arm per constructor of `Instr`, each one call of its meaning. -/

namespace Sys2Proof.Machine

/-- The meaning of an instruction in a state (30_encoding R99: `execute(decode(c))`). -/
def exec (i : Instr) (s : State) : Host.Outcome State Fault Refusal :=
  match i with
  | .nop => Sys2Proof.Machine.execNop s
  | .ctxInit => Sys2Proof.Machine.execCtxInit s
  | .clrerr => Sys2Proof.Machine.execClrerr s
  | .dvZero sp rd => Sys2Proof.Machine.execDvZero sp rd s
  | .dvCopy sp rd ra => Sys2Proof.Machine.execDvCopy sp rd ra s
  | .dvCmp sp ra rb => Sys2Proof.Machine.execDvCmp sp ra rb s
  | .bnAdd rd ra rb => Sys2Proof.Machine.execBnAdd rd ra rb s
  | .bnSub rd ra rb => Sys2Proof.Machine.execBnSub rd ra rb s
  | .bnMul rd ra rb => Sys2Proof.Machine.execBnMul rd ra rb s
  | .bnSqr rd ra => Sys2Proof.Machine.execBnSqr rd ra s
  | .bnDiv rd rc ra rb => Sys2Proof.Machine.execBnDiv rd rc ra rb s
  | .bnMod rd ra rb => Sys2Proof.Machine.execBnMod rd ra rb s
  | .bnGcd rd ra rb => Sys2Proof.Machine.execBnGcd rd ra rb s
  | .bnLsh rd ra imm16 => Sys2Proof.Machine.execBnLsh rd ra imm16 s
  | .bnRsh rd ra imm16 => Sys2Proof.Machine.execBnRsh rd ra imm16 s
  | .recNaf rd ra w => Sys2Proof.Machine.execRecNaf rd ra w s
  | .recJsf rd ra rb => Sys2Proof.Machine.execRecJsf rd ra rb s
  | .recTnaf rd ra w => Sys2Proof.Machine.execRecTnaf rd ra w s
  | .recWin rd ra w => Sys2Proof.Machine.execRecWin rd ra w s
  | .recReg rd ra w => Sys2Proof.Machine.execRecReg rd ra w s
  | .fpAdd rd ra rb => Sys2Proof.Machine.execFpAdd rd ra rb s
  | .fpSub rd ra rb => Sys2Proof.Machine.execFpSub rd ra rb s
  | .fpNeg rd ra => Sys2Proof.Machine.execFpNeg rd ra s
  | .fpDbl rd ra => Sys2Proof.Machine.execFpDbl rd ra s
  | .fpHlv rd ra => Sys2Proof.Machine.execFpHlv rd ra s
  | .fpMul rd ra rb => Sys2Proof.Machine.execFpMul rd ra rb s
  | .fpSqr rd ra => Sys2Proof.Machine.execFpSqr rd ra s
  | .fpInv rd ra => Sys2Proof.Machine.execFpInv rd ra s
  | .fpExp rd ra rb => Sys2Proof.Machine.execFpExp rd ra rb s
  | .fpExpMonty rd ra rb => Sys2Proof.Machine.execFpExpMonty rd ra rb s
  | .fpSrt rd ra => Sys2Proof.Machine.execFpSrt rd ra s
  | .fpCmp ra rb => Sys2Proof.Machine.execFpCmp ra rb s
  | .fpConv rd ra => Sys2Proof.Machine.execFpConv rd ra s
  | .fpBack rd ra => Sys2Proof.Machine.execFpBack rd ra s
  | .fpMuln rd ra rb => Sys2Proof.Machine.execFpMuln rd ra rb s
  | .fpRdc rd ra => Sys2Proof.Machine.execFpRdc rd ra s
  | .fpRdcn rd ra => Sys2Proof.Machine.execFpRdcn rd ra s
  | .fpRdcs rd ra => Sys2Proof.Machine.execFpRdcs rd ra s
  | .fbAdd rd ra rb => Sys2Proof.Machine.execFbAdd rd ra rb s
  | .fbMul rd ra rb => Sys2Proof.Machine.execFbMul rd ra rb s
  | .fbSqr rd ra => Sys2Proof.Machine.execFbSqr rd ra s
  | .fbMuln rd ra rb => Sys2Proof.Machine.execFbMuln rd ra rb s
  | .fbRdc rd ra => Sys2Proof.Machine.execFbRdc rd ra s
  | .fbSrt rd ra => Sys2Proof.Machine.execFbSrt rd ra s
  | .fbTrc ra => Sys2Proof.Machine.execFbTrc ra s
  | .fbSlv rd ra => Sys2Proof.Machine.execFbSlv rd ra s
  | .fbInv rd ra => Sys2Proof.Machine.execFbInv rd ra s
  | .fbInvBasic rd ra => Sys2Proof.Machine.execFbInvBasic rd ra s
  | .fbInvBinar rd ra => Sys2Proof.Machine.execFbInvBinar rd ra s
  | .fbInvAlmos rd ra => Sys2Proof.Machine.execFbInvAlmos rd ra s
  | .fbInvExgcd rd ra => Sys2Proof.Machine.execFbInvExgcd rd ra s
  | .fbInvItoht rd ra => Sys2Proof.Machine.execFbInvItoht rd ra s
  | .fbInvLower rd ra => Sys2Proof.Machine.execFbInvLower rd ra s
  | .fbInvSim rd ra cnt => Sys2Proof.Machine.execFbInvSim rd ra cnt s
  | .fbCmp ra rb => Sys2Proof.Machine.execFbCmp ra rb s
  | .epNeg rd ra => Sys2Proof.Machine.execEpNeg rd ra s
  | .epDbl rd ra => Sys2Proof.Machine.execEpDbl rd ra s
  | .epAdd rd ra rb => Sys2Proof.Machine.execEpAdd rd ra rb s
  | .epNorm rd ra => Sys2Proof.Machine.execEpNorm rd ra s
  | .epMul rd ra rb => Sys2Proof.Machine.execEpMul rd ra rb s
  | .epMulBasic rd ra rb => Sys2Proof.Machine.execEpMulBasic rd ra rb s
  | .epMulLwnaf rd ra rb => Sys2Proof.Machine.execEpMulLwnaf rd ra rb s
  | .epMulRwnaf rd ra rb => Sys2Proof.Machine.execEpMulRwnaf rd ra rb s
  | .epSim rd ra rb rc re => Sys2Proof.Machine.execEpSim rd ra rb rc re s
  | .epSimBasic rd ra rb rc re => Sys2Proof.Machine.execEpSimBasic rd ra rb rc re s
  | .epSimTrick rd ra rb rc re => Sys2Proof.Machine.execEpSimTrick rd ra rb rc re s
  | .epSimInter rd ra rb rc re => Sys2Proof.Machine.execEpSimInter rd ra rb rc re s
  | .epSimJoint rd ra rb rc re => Sys2Proof.Machine.execEpSimJoint rd ra rb rc re s
  | .ebNeg rd ra => Sys2Proof.Machine.execEbNeg rd ra s
  | .ebDbl rd ra => Sys2Proof.Machine.execEbDbl rd ra s
  | .ebAdd rd ra rb => Sys2Proof.Machine.execEbAdd rd ra rb s
  | .ebNorm rd ra => Sys2Proof.Machine.execEbNorm rd ra s
  | .ebFrb rd ra => Sys2Proof.Machine.execEbFrb rd ra s
  | .ebHlv rd ra => Sys2Proof.Machine.execEbHlv rd ra s
  | .ebMul rd ra rb => Sys2Proof.Machine.execEbMul rd ra rb s
  | .ebMulBasic rd ra rb => Sys2Proof.Machine.execEbMulBasic rd ra rb s
  | .ebMulLwnaf rd ra rb => Sys2Proof.Machine.execEbMulLwnaf rd ra rb s
  | .ebMulRwnaf rd ra rb => Sys2Proof.Machine.execEbMulRwnaf rd ra rb s
  | .ebMulLodah rd ra rb => Sys2Proof.Machine.execEbMulLodah rd ra rb s
  | .ebMulHalve rd ra rb => Sys2Proof.Machine.execEbMulHalve rd ra rb s
  | .ebSim rd ra rb rc re => Sys2Proof.Machine.execEbSim rd ra rb rc re s
  | .ebSimBasic rd ra rb rc re => Sys2Proof.Machine.execEbSimBasic rd ra rb rc re s
  | .ebSimTrick rd ra rb rc re => Sys2Proof.Machine.execEbSimTrick rd ra rb rc re s
  | .ebSimInter rd ra rb rc re => Sys2Proof.Machine.execEbSimInter rd ra rb rc re s
  | .ebSimJoint rd ra rb rc re => Sys2Proof.Machine.execEbSimJoint rd ra rb rc re s

end Sys2Proof.Machine
end

