-- ==== Sys2Proof/Machine/Window.lean ====
section
/-! DEFINITION. The operand window (20_memory R70 to R87): which location an address names (R74), its
width, its access class, and reading and writing it (R72, R73). -/

namespace Sys2Proof.Machine

/-- The context registers that are digit vectors (20_memory R74). -/
inductive CtxVec where
  | fpP
  | fpOne
  | epA
  | epB
  | epGx
  | epGy
  | epN
  | epH
  | ebA
  | ebB
  | ebGx
  | ebGy
  | ebN
  | ebH
deriving DecidableEq, Repr

/-- The three exponents of `CTX.FB_POLY`. -/
inductive PolyExp where
  | fa
  | fb
  | fc
deriving DecidableEq, Repr

/-- A coordinate of a point register. -/
inductive Coord where
  | x
  | y
  | z
deriving DecidableEq, Repr

/-- A location of the window: a row of 20_memory R74 with its register and index. -/
inductive Loc where
  | cmd
  | status
  | err
  | flags
  | ctxDigit (v : CtxVec) (i : Nat)
  | fpU
  | sfCnt
  | sfTop
  | sfTerm (i : Nat)
  | poly (e : PolyExp)
  | chainLen
  | chainEntry (i : Nat)
  | ebFlags
  | dv (r : Reg) (i : Nat)
  | nDigit (r : Reg) (i : Nat)
  | nSign (r : Reg)
  | nUsed (r : Reg)
  | rcEntry (r : Reg) (i : Nat)
  | rcLen (r : Reg)
  | fp (r : Reg) (i : Nat)
  | fb (r : Reg) (i : Nat)
  | epDigit (r : Reg) (c : Coord) (i : Nat)
  | epNorm (r : Reg)
  | ebDigit (r : Reg) (c : Coord) (i : Nat)
  | ebNorm (r : Reg)
deriving DecidableEq, Repr

/-- How many digits a context vector has (20_memory R74). -/
def CtxVec.size (b : Build) : CtxVec → Nat
  | .fpP | .fpOne | .epA | .epB | .epGx | .epGy => b.fpDigs
  | .epN | .epH | .ebN | .ebH => b.bnDigs
  | .ebA | .ebB | .ebGx | .ebGy => b.fbDigs

/-- `l` when the condition of the row holds, else unmapped. -/
def mappedIf (c : Bool) (l : Loc) : Option Loc := if c then some l else none

/-- Space 0 (20_memory R74). -/
def locateSys : Nat → Nat → Nat → Option Loc
  | 0, 0, 0 => some .cmd
  | 0, 0, 1 => some .status
  | 0, 0, 2 => some .err
  | 0, 0, 3 => some .flags
  | _, _, _ => none

/-- A context vector, mapped when its unit is present and the index in range (20_memory R74). -/
def locateVec (b : Build) (unit : Bool) (v : CtxVec) (i : Nat) : Option Loc :=
  mappedIf (unit && decide (i < v.size b)) (.ctxDigit v i)

/-- The sparse form: `cnt`, `top`, then the `SF_MAX` terms (20_memory R74). -/
def locateSparse (b : Build) : Nat → Option Loc
  | 0 => mappedIf b.hasFp .sfCnt
  | 1 => mappedIf b.hasFp .sfTop
  | i + 2 => mappedIf (b.hasFp && decide (i < b.sfMax)) (.sfTerm i)

/-- `CTX.FB_POLY` (20_memory R74). -/
def locatePoly (b : Build) : Nat → Option Loc
  | 0 => mappedIf b.hasFb (.poly .fa)
  | 1 => mappedIf b.hasFb (.poly .fb)
  | 2 => mappedIf b.hasFb (.poly .fc)
  | _ => none

/-- `CTX.FB_CHAIN`: `len`, then entries 1 to len (20_memory R74). -/
def locateChain (b : Build) : Nat → Option Loc
  | 0 => mappedIf b.hasFb .chainLen
  | i + 1 => mappedIf (b.hasFb && decide (i < b.chain.length)) (.chainEntry i)

/-- Space 1, by register, component and index (20_memory R74). -/
def locateCtx (b : Build) : Nat → Nat → Nat → Option Loc
  | 0, 0, i => locateVec b b.hasFp .fpP i
  | 1, 0, 0 => mappedIf b.hasFp .fpU
  | 2, 0, i => locateSparse b i
  | 3, 0, i => locatePoly b i
  | 4, 0, i => locateChain b i
  | 5, 0, i => locateVec b b.hasFp .epA i
  | 5, 1, i => locateVec b b.hasFp .epB i
  | 6, 0, i => locateVec b b.hasFp .epGx i
  | 6, 1, i => locateVec b b.hasFp .epGy i
  | 7, 0, i => locateVec b b.hasFp .epN i
  | 8, 0, i => locateVec b b.hasFp .epH i
  | 9, 0, i => locateVec b b.hasFb .ebA i
  | 9, 1, i => locateVec b b.hasFb .ebB i
  | 9, 3, 0 => mappedIf b.hasFb .ebFlags
  | 10, 0, i => locateVec b b.hasFb .ebGx i
  | 10, 1, i => locateVec b b.hasFb .ebGy i
  | 11, 0, i => locateVec b b.hasFb .ebN i
  | 12, 0, i => locateVec b b.hasFb .ebH i
  | 13, 0, i => locateVec b b.hasFp .fpOne i
  | _, _, _ => none

/-- A coordinate component (20_memory R74). -/
def coordOf : Nat → Option Coord
  | 0 => some .x
  | 1 => some .y
  | 2 => some .z
  | _ => none

/-- Spaces 2 to 8, by space, component and index (20_memory R74). -/
def locateReg (b : Build) (r : Reg) : Nat → Nat → Nat → Option Loc
  | 2, 0, i => mappedIf (decide (i < b.dvDigs)) (.dv r i)
  | 3, 0, i => mappedIf (decide (i < b.bnDigs)) (.nDigit r i)
  | 3, 3, 0 => some (.nSign r)
  | 3, 3, 1 => some (.nUsed r)
  | 4, 0, i => mappedIf (decide (i < b.rcLen)) (.rcEntry r i)
  | 4, 3, 0 => some (.rcLen r)
  | 5, 0, i => mappedIf (b.hasFp && decide (i < b.fpDigs)) (.fp r i)
  | 6, 0, i => mappedIf (b.hasFb && decide (i < b.fbDigs)) (.fb r i)
  | 7, 3, 0 => mappedIf b.hasFp (.epNorm r)
  | 7, c, i =>
    (coordOf c).bind fun c => mappedIf (b.hasFp && decide (i < b.fpDigs)) (.epDigit r c i)
  | 8, 3, 0 => mappedIf b.hasFb (.ebNorm r)
  | 8, c, i =>
    (coordOf c).bind fun c => mappedIf (b.hasFb && decide (i < b.fbDigs)) (.ebDigit r c i)
  | _, _, _ => none

/-- The location an address names; none when it is unmapped (20_memory R74, R75). -/
def locate (b : Build) (a : HAddr) : Option Loc :=
  match a.space.val with
  | 0 => locateSys a.reg.val a.comp.val a.idx.val
  | 1 => locateCtx b a.reg.val a.comp.val a.idx.val
  | k => locateReg b a.reg k a.comp.val a.idx.val

/-- The flat 24-bit form of an address, "a convenience" (20_memory R71). -/
def HAddr.flat (a : HAddr) : BitVec 24 :=
  BitVec.ofNat 24 (a.space.val * 2 ^ 20 + a.reg.val * 2 ^ 16 + a.comp.val * 2 ^ 12 + a.idx.val)

/-- The window address of `CMD`. -/
def cmdAddr : HAddr := ⟨0, 0, 0, 0⟩

/-- The window address of `STATUS`. -/
def statusAddr : HAddr := ⟨0, 0, 0, 1⟩

/-- The width of a location in bits (20_memory R71, R74). -/
def Loc.width (b : Build) : Loc → Nat
  | .ctxDigit _ _ | .fpU | .dv _ _ | .nDigit _ _ | .fp _ _ | .fb _ _ | .epDigit _ _ _
  | .ebDigit _ _ _ => b.W
  | .rcEntry _ _ => 8
  | .cmd | .status | .err | .flags | .sfCnt | .sfTop | .sfTerm _ | .poly _ | .chainLen
  | .chainEntry _ | .ebFlags | .nSign _ | .nUsed _ | .rcLen _ | .epNorm _ | .ebNorm _ => 32

/-- The access column of 20_memory R74. -/
inductive Access where
  | writeOnly
  | readOnly
  | readWrite
  | untilInit
deriving DecidableEq, Repr

/-- The access class of a location (20_memory R74). -/
def Loc.access : Loc → Access
  | .cmd => .writeOnly
  | .status | .err | .flags | .fpU | .chainLen | .chainEntry _ | .nUsed _ => .readOnly
  | .ctxDigit .fpOne _ => .readOnly
  | .ctxDigit _ _ | .sfCnt | .sfTop | .sfTerm _ | .poly _ | .ebFlags => .untilInit
  | .dv _ _ | .nDigit _ _ | .nSign _ | .rcEntry _ _ | .rcLen _ | .fp _ _ | .fb _ _ | .epDigit _ _ _
  | .epNorm _ | .ebDigit _ _ _ | .ebNorm _ => .readWrite

/-- The value of a context vector. -/
def Ctx.vec (c : Ctx) : CtxVec → Nat
  | .fpP => c.fpP
  | .fpOne => c.fpOne
  | .epA => c.ep.a
  | .epB => c.ep.b
  | .epGx => c.ep.gx
  | .epGy => c.ep.gy
  | .epN => c.ep.n
  | .epH => c.ep.h
  | .ebA => c.eb.a
  | .ebB => c.eb.b
  | .ebGx => c.eb.gx
  | .ebGy => c.eb.gy
  | .ebN => c.eb.n
  | .ebH => c.eb.h

/-- A context with one vector replaced. -/
def Ctx.setVec (c : Ctx) (v : CtxVec) (x : Nat) : Ctx :=
  match v with
  | .fpP => { c with fpP := x }
  | .fpOne => { c with fpOne := x }
  | .epA => { c with ep := { c.ep with a := x } }
  | .epB => { c with ep := { c.ep with b := x } }
  | .epGx => { c with ep := { c.ep with gx := x } }
  | .epGy => { c with ep := { c.ep with gy := x } }
  | .epN => { c with ep := { c.ep with n := x } }
  | .epH => { c with ep := { c.ep with h := x } }
  | .ebA => { c with eb := { c.eb with a := x } }
  | .ebB => { c with eb := { c.eb with b := x } }
  | .ebGx => { c with eb := { c.eb with gx := x } }
  | .ebGy => { c with eb := { c.eb with gy := x } }
  | .ebN => { c with eb := { c.eb with n := x } }
  | .ebH => { c with eb := { c.eb with h := x } }

/-- An exponent of `CTX.FB_POLY`. -/
def Ctx.exp (c : Ctx) : PolyExp → BitVec 32
  | .fa => c.fa
  | .fb => c.fb
  | .fc => c.fc

/-- A context with one exponent of `CTX.FB_POLY` replaced. -/
def Ctx.setExp (c : Ctx) (e : PolyExp) (x : BitVec 32) : Ctx :=
  match e with
  | .fa => { c with fa := x }
  | .fb => { c with fb := x }
  | .fc => { c with fc := x }

/-- A coordinate of a point register. -/
def PointReg.coord (e : PointReg) : Coord → Nat
  | .x => e.x
  | .y => e.y
  | .z => e.z

/-- A point register with one coordinate replaced. -/
def PointReg.setCoord (e : PointReg) (c : Coord) (v : Nat) : PointReg :=
  match c with
  | .x => { e with x := v }
  | .y => { e with y := v }
  | .z => { e with z := v }

/-- The 32-bit view of a sparse term: bit 31 for −1, s in bits [15:0] (20_memory R74). -/
def SparseTerm.word (t : SparseTerm) : Nat := 2 ^ 31 * t.neg.toNat + t.s.toNat

/-- The 32-bit view of `CTX.EB_FLAGS` (20_memory R74). -/
def EbFlags.word (f : EbFlags) : Nat := f.kbltz.toNat + 2 * f.super.toNat + 4 * f.muneg.toNat

/-- Bit `k` of a written value. -/
def bitOf (v k : Nat) : Bool := v / 2 ^ k % 2 == 1

/-- `HostRead` of a mapped location (20_memory R72); `CMD` reads zero (10_state R43). -/
def readLoc (s : State) : Loc → Nat
  | .cmd => 0
  | .status => s.status.word
  | .err => s.err.word
  | .flags => s.flags.word
  | .ctxDigit v i => digit s.build.W (s.ctx.vec v) i
  | .fpU => s.ctx.fpU
  | .sfCnt => s.ctx.sfCnt.toNat
  | .sfTop => s.ctx.sfTop.toNat
  | .sfTerm i => (s.ctx.sfTerms.getD i ⟨false, 0⟩).word
  | .poly e => (s.ctx.exp e).toNat
  | .chainLen => s.build.chain.length
  | .chainEntry i => 256 * (s.build.chain.getD i (0, 0)).1 + (s.build.chain.getD i (0, 0)).2
  | .ebFlags => s.ctx.ebFlags.word
  | .dv r i => digit s.build.W s.dv[r] i
  | .nDigit r i => digit s.build.W s.n[r].mag i
  | .nSign r => s.n[r].sign.toNat
  | .nUsed r => s.n[r].used s.build.W
  | .rcEntry r i => (s.rc[r].d.getD i 0).toNat
  | .rcLen r => s.rc[r].len
  | .fp r i => digit s.build.W s.fp[r] i
  | .fb r i => digit s.build.W s.fb[r] i
  | .epDigit r c i => digit s.build.W (s.ep[r].coord c) i
  | .epNorm r => s.ep[r].norm.toNat
  | .ebDigit r c i => digit s.build.W (s.eb[r].coord c) i
  | .ebNorm r => s.eb[r].norm.toNat

/-- A context location replaced (20_memory R73, R74). -/
def writeCtx (b : Build) (c : Ctx) (v : Nat) : Loc → Ctx
  | .ctxDigit k i => c.setVec k (setDigit b.W (c.vec k) i v)
  | .sfCnt => { c with sfCnt := BitVec.ofNat 32 v }
  | .sfTop => { c with sfTop := BitVec.ofNat 32 v }
  | .sfTerm i => { c with sfTerms := c.sfTerms.set i ⟨bitOf v 31, BitVec.ofNat 16 v⟩ }
  | .poly e => c.setExp e (BitVec.ofNat 32 v)
  | .ebFlags => { c with ebFlags := ⟨bitOf v 0, bitOf v 1, bitOf v 2⟩ }
  | _ => c

/-- `HostWrite` of a writable location other than `CMD` (20_memory R73): a 32-bit location keeps the bits
that R74 names, `RC[r].len` at most `RC_LEN`. -/
def writeLoc (s : State) (v : Nat) : Loc → State
  | .dv r i => { s with dv := s.dv.set r (setDigit s.build.W s.dv[r] i v) }
  | .nDigit r i => { s with n := s.n.set r { s.n[r] with mag := setDigit s.build.W s.n[r].mag i v } }
  | .nSign r => { s with n := s.n.set r { s.n[r] with sign := bitOf v 0 } }
  | .rcEntry r i => { s with rc := s.rc.set r { s.rc[r] with d := s.rc[r].d.set i (BitVec.ofNat 8 v) } }
  | .rcLen r => { s with rc := s.rc.set r { s.rc[r] with len := min v s.build.rcLen } }
  | .fp r i => { s with fp := s.fp.set r (setDigit s.build.W s.fp[r] i v) }
  | .fb r i => { s with fb := s.fb.set r (setDigit s.build.W s.fb[r] i v) }
  | .epDigit r c i =>
    { s with ep := s.ep.set r (s.ep[r].setCoord c (setDigit s.build.W (s.ep[r].coord c) i v)) }
  | .epNorm r => { s with ep := s.ep.set r { s.ep[r] with norm := bitOf v 0 } }
  | .ebDigit r c i =>
    { s with eb := s.eb.set r (s.eb[r].setCoord c (setDigit s.build.W (s.eb[r].coord c) i v)) }
  | .ebNorm r => { s with eb := s.eb.set r { s.eb[r] with norm := bitOf v 0 } }
  | l => { s with ctx := writeCtx s.build s.ctx v l }

end Sys2Proof.Machine
end

