-- ==== Sys2Proof/Machine/Port.lean ====
section
/-! DEFINITION. The command port and the host's transactions: issue and completion (30_encoding R99 to
R101), `HostRead` and `HostWrite` (20_memory R72, R73, R75, R78), what may happen while a command runs
(R80), and the platform's reset (70_reset R360). -/

namespace Sys2Proof.Machine

/-- Reset (70_reset R360, R361): every register and the command in progress; the build stays, and so do
the model's own records of the world outside. Whether the transactions that were
waiting are dropped or take effect after the reset is a free bit (log 18). -/
def platformReset (s : State) : State :=
  { State.resetOf s.build with
    inbox := s.inbox
    held := if s.draw 0 % 2 = 1 then s.held else []
    reply := s.reply
    tape := s.tape.drop 1
    draws := s.draws + 1 }

/-- The word is let through although `ERRF = 1`: only `CLRERR`'s `op` is (30_encoding R99). -/
def accepted (s : State) (c : Word) : Bool := !s.status.errf || opOf c == 2

/-- Issue: `BUSY <- 1`, `DONE <- 0` (30_encoding R99); the word is kept (20_memory R83). -/
def issue (c : Word) (s : State) : State :=
  { s with status := { s.status with busy := true, done := false }, running := some c }

/-- The running command ends: `execute(decode(c))`, an undefined encoding being `InvalidInput` (30_encoding
R98, R99). -/
def complete (c : Word) (s : State) : Host.Outcome State Fault Refusal :=
  match decode c with
  | .ok i => exec i s
  | .error _ => .next (takeFault .invalidInput (opOf c) s)

/-- A transaction presented while a command runs: a reset abandons the command (70_reset R360), a read of
`STATUS` is answered at once, anything else waits behind those that wait already (20_memory R80). -/
def presentEarly (t : Txn) (s : State) : State :=
  match t with
  | .reset => platformReset s
  | .read a =>
    if a = statusAddr then { s with reply := some s.status.word }
    else { s with held := s.held ++ [.read a] }
  | .write a v => { s with held := s.held ++ [.write a v] }

/-- While command `c` runs: one more transaction is presented, or the command ends, where the host pauses for
one command or presents nothing more (20_memory R80; log 17, log 19). -/
def advance (c : Word) (s : State) : Host.Outcome State Fault Refusal :=
  match s.inbox with
  | .present t :: rest => .next (presentEarly t { s with inbox := rest })
  | .pause :: rest => complete c { s with inbox := rest }
  | [] => complete c s

/-- A write of a word to `CMD` (30_encoding R99): dropped while `ERRF = 1`, else issued. -/
def writeCmd (c : Word) (s : State) : Host.Outcome State Fault Refusal :=
  if accepted s c then advance c (issue c s) else .next s

/-- `HostRead` (20_memory R72, R75). -/
def hostRead (a : HAddr) (s : State) : State :=
  match locate s.build a with
  | some l => { s with reply := some (readLoc s l) }
  | none => { hostFault .invalidInput s with reply := some 0 }

/-- `HostWrite` to a mapped location (20_memory R73, R75, R78). -/
def writeMapped (l : Loc) (v : Nat) (s : State) : Host.Outcome State Fault Refusal :=
  if v < 2 ^ l.width s.build then
    match l.access with
    | .writeOnly => writeCmd (BitVec.ofNat 32 v) s
    | .readOnly => .next (hostFault .invalidInput s)
    | .readWrite => .next (writeLoc s v l)
    | .untilInit =>
      if s.status.init then .next (hostFault .noValidConfig s) else .next (writeLoc s v l)
  else .fault .valueWiderThanLocation

/-- `HostWrite` (20_memory R73, R75, R78). -/
def hostWrite (a : HAddr) (v : Nat) (s : State) : Host.Outcome State Fault Refusal :=
  match locate s.build a with
  | some l => writeMapped l v s
  | none => .next (hostFault .invalidInput s)

/-- One transaction between commands (20_memory R80, R81). -/
def transact (t : Txn) (s : State) : Host.Outcome State Fault Refusal :=
  match t with
  | .read a => .next (hostRead a s)
  | .write a v => hostWrite a v s
  | .reset => .next (platformReset s)

/-- The host still presents only the write of `w` to `CMD`, no command runs and nothing waits. -/
def presentCommand (nbits w : Nat) (s : State) : State :=
  { s with running := none, held := [], inbox := [.present (.write cmdAddr (w % 2 ^ nbits % 2 ^ 32))] }

end Sys2Proof.Machine
end

