-- ==== Sys2Proof/Machine/Step.lean ====
section
/-! DEFINITION. One step of the machine: the running command goes on, or the oldest transaction of the
host takes effect, one that waited first (20_memory R80, R81), or the block is idle (60_exceptions R340,
R346). -/

namespace Sys2Proof.Machine

/-- One step. -/
def step (s : State) : Host.Outcome State Fault Refusal :=
  match s.running, s.held, s.inbox with
  | some c, _, _ => advance c s
  | none, t :: rest, _ => transact t { s with held := rest }
  | none, [], .present t :: rest => transact t { s with inbox := rest }
  | none, [], .pause :: rest => .next { s with inbox := rest }
  | none, [], [] => .next s

/-- `s` with the word `w` as the host's next write to `CMD`: the block fetches nothing (20_memory R83), so
the place a command comes from is the host's next transaction (log 3). -/
def State.withFetchWord (s : State) (nbits w : Nat) : State := presentCommand nbits w s

end Sys2Proof.Machine
end

