-- ==== Sys2Proof/Safety.lean ====
section
/-! DEFINITION. The terms that claims about this machine use: the invariants of a state, what a command
leaves unchanged, and what the context must be for the field and curve rules to speak (70_reset R368). -/

namespace Sys2Proof.Machine

/-! Invariants that every step keeps. -/

/-- A point register whose coordinates fit in `n` digits. -/
def PointReg.fits (W n : Nat) (e : PointReg) : Prop :=
  e.x < 2 ^ (W * n) ∧ e.y < 2 ^ (W * n) ∧ e.z < 2 ^ (W * n)

/-- Every context register fits its width (10_state R45 to R56). -/
structure CtxFits (b : Build) (c : Ctx) : Prop where
  vec : ∀ v : CtxVec, c.vec v < 2 ^ (b.W * v.size b)
  fpU : c.fpU < 2 ^ b.W
  rr : c.rr < 2 ^ (b.W * b.fpDigs)
  terms : c.sfTerms.length = b.sfMax

/-- Every register holds a value of its width (10_state R31 to R38). -/
structure Fits (s : State) : Prop where
  n : ∀ r : Reg, s.n[r].mag < 2 ^ (s.build.W * s.build.bnDigs)
  fp : ∀ r : Reg, s.fp[r] < 2 ^ (s.build.W * s.build.fpDigs)
  fb : ∀ r : Reg, s.fb[r] < 2 ^ (s.build.W * s.build.fbDigs)
  dv : ∀ r : Reg, s.dv[r] < 2 ^ (s.build.W * s.build.dvDigs)
  ep : ∀ r : Reg, s.ep[r].fits s.build.W s.build.fpDigs
  eb : ∀ r : Reg, s.eb[r].fits s.build.W s.build.fbDigs
  rc : ∀ r : Reg, s.rc[r].d.length = s.build.rcLen ∧ s.rc[r].len ≤ s.build.rcLen
  ctx : CtxFits s.build s.ctx

/-- `STATUS` and `ERR` say the same thing (10_state R41, R42), no fault has a kind that is never raised
(60_exceptions R331, R343), and what waits for a command is no reset and no read of `STATUS` (20_memory
R80, 70_reset R360). -/
structure StatusOk (s : State) : Prop where
  notBoth : ¬(s.status.busy = true ∧ s.status.done = true)
  busy : s.status.busy = s.running.isSome
  errf : s.status.errf = s.err.kind.isSome
  kind : ∀ k, s.err.kind = some k →
    k = .precisionExceeded ∨ k = .invalidInput ∨ k = .noValidConfig
  op : s.err.op < 256
  opNone : s.err.kind = none → s.err.op = 0
  held : ∀ x ∈ s.held, x ≠ .reset ∧ x ≠ .read statusAddr

/-- The prime half of a context that `CTX.INIT` accepts (47_sys R322). -/
structure FpStaged (b : Build) (c : Ctx) : Prop where
  odd : c.fpP % 2 = 1
  len : bitlen c.fpP = b.fpBits
  count : c.sfCnt.toNat ≤ b.sfMax
  falling : c.sfCnt ≠ 0 →
    (c.sfTerms.take c.sfCnt.toNat).Pairwise (fun t u => u.s.toNat < t.s.toNat) ∧
      ∀ t ∈ c.sfTerms.take c.sfCnt.toNat, t.s.toNat < c.sfTop.toNat
  sum : c.sfCnt ≠ 0 →
    (2 : Int) ^ c.sfTop.toNat + sparseTail (c.sfTerms.take c.sfCnt.toNat) = (c.fpP : Int)
  curve : c.ep.a < c.fpP ∧ c.ep.b < c.fpP ∧ c.ep.gx < c.fpP ∧ c.ep.gy < c.fpP

/-- The binary half of a context that `CTX.INIT` accepts (47_sys R322). -/
structure FbStaged (b : Build) (c : Ctx) : Prop where
  shape : (c.fb = 0 ∧ c.fc = 0 ∧ 0 < c.fa.toNat ∧ c.fa.toNat < b.m) ∨
    (c.fa.toNat < b.m ∧ c.fb.toNat < c.fa.toNat ∧ c.fc.toNat < c.fb.toNat ∧ 0 < c.fc.toNat)
  curve : c.eb.a < 2 ^ b.m ∧ c.eb.b < 2 ^ b.m ∧ c.eb.gx < 2 ^ b.m ∧ c.eb.gy < 2 ^ b.m
  koblitz : c.ebFlags.kbltz = true → c.eb.a ≤ 1 ∧ c.eb.b ≤ 1

/-- What `CTX.INIT` derives on the prime side (47_sys R322). -/
structure FpDerived (b : Build) (c : Ctx) : Prop where
  u : (c.fpP * c.fpU + 1) % 2 ^ b.W = 0
  one : c.fpOne = match b.fpRdc with | .monty => bigR b % c.fpP | .sparse => 1
  rr : c.rr = bigR b ^ 2 % c.fpP

/-- A locked context is one that passed the checks of `CTX.INIT`, with its derived registers (47_sys R322,
70_reset R365). -/
def CtxSound (s : State) : Prop :=
  s.status.init = true →
    (s.build.hasFp = true →
      FpStaged s.build s.ctx ∧ FpDerived s.build s.ctx ∧
        (s.build.fpRdc = .sparse → s.ctx.sfCnt ≠ 0)) ∧
    (s.build.hasFb = true → FbStaged s.build s.ctx)

/-! The host's side (20_memory R80, R81). -/

/-- No command runs and the next transaction to take effect is `x`: the oldest that waited for a command to
end or, where none waits, the next that is presented. `s'` is the state without it. -/
def Takes (s : State) (x : Txn) (s' : State) : Prop :=
  s.running = none ∧
    ((∃ rest, s.held = x :: rest ∧ s' = { s with held := rest }) ∨
      (s.held = [] ∧ ∃ rest, s.inbox = .present x :: rest ∧ s' = { s with inbox := rest }))

/-- No transaction comes before the running command has ended (20_memory R80). -/
abbrev Quiet (s : State) : Prop := ∀ a ∈ s.inbox.head?, a = .pause

/-! What a completed command leaves alone. -/

/-- The seven register files (10_state R30). -/
inductive File where
  | n
  | fp
  | fb
  | ep
  | eb
  | dv
  | rc
deriving DecidableEq, Repr

/-- A register file is the same in both states. -/
def SameFile (s t : State) : File → Prop
  | .n => t.n = s.n
  | .fp => t.fp = s.fp
  | .fb => t.fb = s.fb
  | .ep => t.ep = s.ep
  | .eb => t.eb = s.eb
  | .dv => t.dv = s.dv
  | .rc => t.rc = s.rc

/-- A command completed (30_encoding R101) and wrote nothing but the files `ws`, `FLAGS` apart: `DONE` is
set and `BUSY` clear, `ERRF` and `INIT` as before; `ERR`, every context register, the build and the
host's side are as before. -/
structure Frame (s t : State) (ws : List File) : Prop where
  status : t.status = ⟨false, true, s.status.errf, s.status.init⟩
  err : t.err = s.err
  ctx : t.ctx = s.ctx
  running : t.running = none
  build : t.build = s.build
  inbox : t.inbox = s.inbox
  held : t.held = s.held
  reply : t.reply = s.reply
  files : ∀ f, f ∉ ws → SameFile s t f

/-- No register but `N[rd]` changes, and no flag. -/
def OnlyN (s t : State) (rd : Reg) : Prop :=
  Frame s t [.n] ∧ t.flags = s.flags ∧ ∀ r, r ≠ rd → t.n[r] = s.n[r]

/-- No register but `FP[rd]` changes, and no flag. -/
def OnlyFp (s t : State) (rd : Reg) : Prop :=
  Frame s t [.fp] ∧ t.flags = s.flags ∧ ∀ r, r ≠ rd → t.fp[r] = s.fp[r]

/-- No register but `FB[rd]` changes, and no flag. -/
def OnlyFb (s t : State) (rd : Reg) : Prop :=
  Frame s t [.fb] ∧ t.flags = s.flags ∧ ∀ r, r ≠ rd → t.fb[r] = s.fb[r]

/-- No register but `DV[rd]` changes, and no flag. -/
def OnlyDv (s t : State) (rd : Reg) : Prop :=
  Frame s t [.dv] ∧ t.flags = s.flags ∧ ∀ r, r ≠ rd → t.dv[r] = s.dv[r]

/-- No register but `EP[rd]` changes, and no flag. -/
def OnlyEp (s t : State) (rd : Reg) : Prop :=
  Frame s t [.ep] ∧ t.flags = s.flags ∧ ∀ r, r ≠ rd → t.ep[r] = s.ep[r]

/-- No register but `EB[rd]` changes, and no flag. -/
def OnlyEb (s t : State) (rd : Reg) : Prop :=
  Frame s t [.eb] ∧ t.flags = s.flags ∧ ∀ r, r ≠ rd → t.eb[r] = s.eb[r]

/-- No recoding buffer but those of `rds` changes, no other register and no flag. -/
def OnlyRc (s t : State) (rds : List Reg) : Prop :=
  Frame s t [.rc] ∧ t.flags = s.flags ∧ ∀ r, r ∉ rds → t.rc[r] = s.rc[r]

/-- No register changes, only `FLAGS`. -/
def OnlyFlags (s t : State) : Prop := Frame s t []

/-- A buffer holds the digits `ds`: its length, their 8-bit images from entry 0, zero in every later entry
(42_rec R141, R142). -/
def RecReg.holds (r : RecReg) (ds : List Int) : Prop :=
  r.len = ds.length ∧ (∀ i, i < ds.length → r.d.getD i 0 = BitVec.ofInt 8 (ds.getD i 0)) ∧
    ∀ i, ds.length ≤ i → r.d.getD i 0 = 0

/-! Contexts whose mathematics is true (70_reset R368). -/

/-- f makes the polynomials below degree m a field: every non-zero one has an inverse, which is what the
irreducibility of f gives (70_reset R368, 44_fb R211). -/
def FieldPoly (m f : Nat) : Prop :=
  2 ^ m ≤ f ∧ f < 2 ^ (m + 1) ∧ ∀ a, 0 < a → a < 2 ^ m → ∃ x, x < 2 ^ m ∧ fbMulP m f a x = 1

/-- G has order n under the operations `o`: [n]G = O, and no smaller positive multiple is (70_reset R368). -/
def HasOrder (o : PtOps Pt) (n : Nat) (G : Pt) : Prop :=
  0 < n ∧ mulBasic o n G = .inf ∧ ∀ d, 0 < d → d < n → mulBasic o d G ≠ .inf

/-- "4a³ + 27b² ≠ 0": the curve is not singular (45_ep R240, 70_reset R368). -/
def State.smooth (s : State) : Prop :=
  (4 * s.valFp s.ctx.ep.a ^ 3 + 27 * s.valFp s.ctx.ep.b ^ 2) % s.ctx.fpP ≠ 0

/-- The residues of the generator of the prime curve (10_state R51). -/
def State.epGen (s : State) : Nat × Nat := (s.valFp s.ctx.ep.gx, s.valFp s.ctx.ep.gy)

/-- The prime side of the context is true mathematically (70_reset R368). -/
structure EpTrue (s : State) : Prop where
  prime : Nat.Prime s.ctx.fpP
  smooth : s.smooth
  generator : epOnCurve s.ctx.fpP (s.valFp s.ctx.ep.a) (s.valFp s.ctx.ep.b) s.epGen.1 s.epGen.2 1 = true
  order : HasOrder s.epOps s.ctx.ep.n (.aff s.epGen.1 s.epGen.2)
  count : pointCount s.ctx.fpP
      (fun x y => epOnCurve s.ctx.fpP (s.valFp s.ctx.ep.a) (s.valFp s.ctx.ep.b) x y 1) =
    s.ctx.ep.n * s.ctx.ep.h

/-- The binary side of the context is true mathematically (70_reset R368); a curve of 46_eb R280 with b ≠ 0 is
not supersingular, and it is a Koblitz curve when a is 0 or 1 and b is 1. -/
structure EbTrue (s : State) : Prop where
  field : FieldPoly s.build.m (fbPoly s)
  b : s.ctx.eb.b ≠ 0
  ordinary : s.ctx.ebFlags.super = false
  koblitz : s.ctx.ebFlags.kbltz = true ↔ s.ctx.eb.a ≤ 1 ∧ s.ctx.eb.b = 1
  mu : s.ctx.ebFlags.kbltz = true → (s.ctx.ebFlags.muneg = true ↔ s.ctx.eb.a = 0)
  generator : ebOnCurve s.build.m (fbPoly s) s.ctx.eb.a s.ctx.eb.b s.ctx.eb.gx s.ctx.eb.gy 1 = true
  order : HasOrder s.ebOps s.ctx.eb.n (.aff s.ctx.eb.gx s.ctx.eb.gy)
  count : pointCount (2 ^ s.build.m)
      (fun x y => ebOnCurve s.build.m (fbPoly s) s.ctx.eb.a s.ctx.eb.b x y 1) =
    s.ctx.eb.n * s.ctx.eb.h

/-- Every register of a unit that is present is canonical (10_state R32 to R35). -/
structure Canonical (s : State) : Prop where
  n : ∀ r : Reg, s.n[r] ≠ ⟨true, 0⟩
  fp : s.build.hasFp = true → ∀ r : Reg, s.fp[r] < s.ctx.fpP
  ep : s.build.hasFp = true → ∀ r : Reg, s.ep[r].x < s.ctx.fpP ∧ s.ep[r].y < s.ctx.fpP ∧
    s.ep[r].z < s.ctx.fpP ∧ (s.ep[r].norm = true → s.ep[r].z = s.ctx.fpOne)
  fb : s.build.hasFb = true → ∀ r : Reg, s.fb[r] < 2 ^ s.build.m
  eb : s.build.hasFb = true → ∀ r : Reg, s.eb[r].x < 2 ^ s.build.m ∧ s.eb[r].y < 2 ^ s.build.m ∧
    s.eb[r].z < 2 ^ s.build.m ∧ (s.eb[r].norm = true → s.eb[r].z = 1)

/-- A set of points that is the image of a commutative group under the operations `o`. -/
structure GroupImage {α : Type} (o : PtOps α) (A : Type) [AddCommGroup A] (g : A → α) : Prop where
  zero : g 0 = o.zero
  neg : ∀ P, g (-P) = o.neg (g P)
  add : ∀ P Q, g (P + Q) = o.add (g P) (g Q)
  dbl : ∀ P, g (P + P) = o.dbl (g P)

/-- A locked prime context in a build that the spec allows. -/
structure FpGood (s : State) : Prop where
  wf : s.build.wf = true
  fits : Fits s
  sound : CtxSound s
  unit : s.build.hasFp = true
  init : s.status.init = true

/-- A locked binary context in a build that the spec allows. -/
structure FbGood (s : State) : Prop where
  wf : s.build.wf = true
  fits : Fits s
  sound : CtxSound s
  unit : s.build.hasFb = true
  init : s.status.init = true

/-- The points of a commutative group `A`, one for each element, that lie on the context's binary curve
(46_eb R280). -/
structure EbGroup (s : State) (A : Type) [AddCommGroup A] (g : A → Pt) : Prop where
  image : GroupImage s.ebOps A g
  inj : Function.Injective g
  curve : ∀ P x y, g P = .aff x y → x < 2 ^ s.build.m ∧ y < 2 ^ s.build.m ∧
    ebOnCurve s.build.m (fbPoly s) s.ctx.eb.a s.ctx.eb.b x y 1 = true

/-! What a written location, a recoding and a polynomial are. -/

/-- What a location keeps of a written value (20_memory R74). -/
def kept (b : Build) (v : Nat) : Loc → Nat
  | .nSign _ | .epNorm _ | .ebNorm _ => v % 2
  | .ebFlags => v % 8
  | .sfTerm _ => v / 2 ^ 31 * 2 ^ 31 + v % 2 ^ 16
  | .rcLen _ => min v b.rcLen
  | _ => v

/-- The four conditions of 42_rec R148 on a digit sequence. -/
def Qualifies (s : State) (w k : Nat) (ds : List Int) : Prop :=
  ds.length ≤ s.build.m + s.build.tnafExtra ∧
  (∀ d ∈ ds, d = 0 ∨ (d % 2 = 1 ∧ d.natAbs ≤ 2 ^ (w - 1) - 1)) ∧
  (∀ i j, i < j → j < i + w → ds.getD i 0 = 0 ∨ ds.getD j 0 = 0) ∧
  ∀ j, j < s.ctx.eb.n →
    tauSum s.ebOps s.frob ds (mulBasic s.ebOps j (.aff s.ctx.eb.gx s.ctx.eb.gy)) =
      mulBasic s.ebOps k (mulBasic s.ebOps j (.aff s.ctx.eb.gx s.ctx.eb.gy))

/-- `P` is the polynomial over GF(2) that the integer `a` stands for (00_scope R19). -/
def IsPoly (a : Nat) (P : Polynomial (ZMod 2)) : Prop :=
  ∀ i, P.coeff i = if a.testBit i then 1 else 0

/-! The instructions of each method (30_encoding R95). -/

/-- The inversion command of a variant (44_fb R212 to R217). -/
def fbInvOf : FbInv → Reg → Reg → Instr
  | .basic => .fbInvBasic
  | .binar => .fbInvBinar
  | .almos => .fbInvAlmos
  | .exgcd => .fbInvExgcd
  | .itoht => .fbInvItoht
  | .lower => .fbInvLower

/-- The multiplication command of a prime-curve method (45_ep R257 to R259). -/
def epMulOf : EpMul → Reg → Reg → Reg → Instr
  | .basic => .epMulBasic
  | .lwnaf => .epMulLwnaf
  | .rwnaf => .epMulRwnaf

/-- The two-scalar command of a prime-curve method (45_ep R264 to R267). -/
def epSimOf : SimMethod → Reg → Reg → Reg → Reg → Reg → Instr
  | .basic => .epSimBasic
  | .trick => .epSimTrick
  | .inter => .epSimInter
  | .joint => .epSimJoint

/-- The multiplication command of a binary-curve method (46_eb R299 to R303). -/
def ebMulOf : EbMul → Reg → Reg → Reg → Instr
  | .basic => .ebMulBasic
  | .lwnaf => .ebMulLwnaf
  | .rwnaf => .ebMulRwnaf
  | .lodah => .ebMulLodah
  | .halve => .ebMulHalve

/-- The two-scalar command of a binary-curve method (46_eb R309 to R312). -/
def ebSimOf : SimMethod → Reg → Reg → Reg → Reg → Reg → Instr
  | .basic => .ebSimBasic
  | .trick => .ebSimTrick
  | .inter => .ebSimInter
  | .joint => .ebSimJoint

/-- The methods whose result is [k]P only for a point whose order divides n: halving, and the τ-adic methods on
a Koblitz curve (46_eb R303, R304, 70_reset R369). -/
def NeedsOrder (s : State) : EbMul → Prop
  | .halve => True
  | .lwnaf => s.ctx.ebFlags.kbltz = true
  | .rwnaf => s.ctx.ebFlags.kbltz = true
  | .basic => False
  | .lodah => False

/-- The same for the two-scalar methods (46_eb R309 to R312); `BASIC` never halves (log 16). -/
def SimNeedsOrder (s : State) : SimMethod → Prop
  | .basic => NeedsOrder s (ebSimMul s)
  | .trick => False
  | .inter => s.ctx.ebFlags.kbltz = true
  | .joint => False

/-! What a command tests first (60_exceptions R333, R353). -/

/-- The source registers of a command whose contents must be canonical, by file (60_exceptions R333). -/
structure Sources where
  n : List Reg := []
  fp : List Reg := []
  fb : List Reg := []
  ep : List Reg := []
  eb : List Reg := []

/-- The sources that each command reads (30_encoding R95). `DV.*` commands do not check theirs (40_dv R110),
and a `DV` register has no canonical form. -/
def sources : Instr → Sources
  | .nop | .ctxInit | .clrerr | .dvZero .. | .dvCopy .. | .dvCmp .. | .recReg .. => {}
  | .bnAdd _ ra rb | .bnSub _ ra rb | .bnMul _ ra rb | .bnDiv _ _ ra rb | .bnMod _ ra rb
  | .bnGcd _ ra rb | .recJsf _ ra rb => { n := [ra, rb] }
  | .bnSqr _ ra | .bnLsh _ ra _ | .bnRsh _ ra _ | .recNaf _ ra _ | .recTnaf _ ra _
  | .recWin _ ra _ => { n := [ra] }
  | .fpAdd _ ra rb | .fpSub _ ra rb | .fpMul _ ra rb | .fpCmp ra rb | .fpMuln _ ra rb =>
    { fp := [ra, rb] }
  | .fpNeg _ ra | .fpDbl _ ra | .fpHlv _ ra | .fpSqr _ ra | .fpInv _ ra | .fpSrt _ ra
  | .fpConv _ ra | .fpBack _ ra => { fp := [ra] }
  | .fpExp _ ra rb | .fpExpMonty _ ra rb => { fp := [ra], n := [rb] }
  | .fpRdc .. | .fpRdcn .. | .fpRdcs .. | .fbRdc .. => {}
  | .fbAdd _ ra rb | .fbMul _ ra rb | .fbMuln _ ra rb | .fbCmp ra rb => { fb := [ra, rb] }
  | .fbSqr _ ra | .fbSrt _ ra | .fbTrc ra | .fbSlv _ ra | .fbInv _ ra | .fbInvBasic _ ra
  | .fbInvBinar _ ra | .fbInvAlmos _ ra | .fbInvExgcd _ ra | .fbInvItoht _ ra
  | .fbInvLower _ ra => { fb := [ra] }
  | .fbInvSim _ ra cnt => { fb := (List.range (cnt.val + 1)).map fun i => ra + Fin.ofNat 16 i }
  | .epNeg _ ra | .epDbl _ ra | .epNorm _ ra => { ep := [ra] }
  | .epAdd _ ra rb => { ep := [ra, rb] }
  | .epMul _ ra rb | .epMulBasic _ ra rb | .epMulLwnaf _ ra rb | .epMulRwnaf _ ra rb =>
    { ep := [ra], n := [rb] }
  | .epSim _ ra rb rc re | .epSimBasic _ ra rb rc re | .epSimTrick _ ra rb rc re
  | .epSimInter _ ra rb rc re | .epSimJoint _ ra rb rc re => { ep := [ra, rc], n := [rb, re] }
  | .ebNeg _ ra | .ebDbl _ ra | .ebNorm _ ra | .ebFrb _ ra | .ebHlv _ ra => { eb := [ra] }
  | .ebAdd _ ra rb => { eb := [ra, rb] }
  | .ebMul _ ra rb | .ebMulBasic _ ra rb | .ebMulLwnaf _ ra rb | .ebMulRwnaf _ ra rb
  | .ebMulLodah _ ra rb | .ebMulHalve _ ra rb => { eb := [ra], n := [rb] }
  | .ebSim _ ra rb rc re | .ebSimBasic _ ra rb rc re | .ebSimTrick _ ra rb rc re
  | .ebSimInter _ ra rb rc re | .ebSimJoint _ ra rb rc re => { eb := [ra, rc], n := [rb, re] }

/-- Some source register is not canonical: a negative zero, an element out of its field, a point with such a
coordinate or with `norm = 1` and z not the field-1 element (60_exceptions R333, 10_state R32 to R35). -/
def BadSource (s : State) (i : Instr) : Prop :=
  (∃ r ∈ (sources i).n, s.n[r] = ⟨true, 0⟩) ∨
  (∃ r ∈ (sources i).fp, s.ctx.fpP ≤ s.fp[r]) ∨
  (∃ r ∈ (sources i).fb, 2 ^ s.build.m ≤ s.fb[r]) ∨
  (∃ r ∈ (sources i).ep, s.ctx.fpP ≤ s.ep[r].x ∨ s.ctx.fpP ≤ s.ep[r].y ∨ s.ctx.fpP ≤ s.ep[r].z ∨
    s.ep[r].norm = true ∧ s.ep[r].z ≠ s.ctx.fpOne) ∨
  ∃ r ∈ (sources i).eb, 2 ^ s.build.m ≤ s.eb[r].x ∨ 2 ^ s.build.m ≤ s.eb[r].y ∨
    2 ^ s.build.m ≤ s.eb[r].z ∨ s.eb[r].norm = true ∧ s.eb[r].z ≠ 1

/-- Some source point is off its curve in a build that checks (45_ep R241, 46_eb R281). -/
def OffCurveSource (s : State) (i : Instr) : Prop :=
  (s.build.epCheck = true ∧ ∃ r ∈ (sources i).ep, epOn s s.ep[r] = false) ∨
  (s.build.ebCheck = true ∧ ∃ r ∈ (sources i).eb, ebOn s s.eb[r] = false)

/-- `HAS_FP` and a locked context. -/
def FpUp (s : State) : Prop := s.build.hasFp = true ∧ s.status.init = true

/-- `HAS_FB` and a locked context. -/
def FbUp (s : State) : Prop := s.build.hasFb = true ∧ s.status.init = true

/-- `HAS_FB` and a locked context of an ordinary curve. -/
def EbUp (s : State) : Prop := FbUp s ∧ s.ctx.ebFlags.super = false

/-- What right-to-left τ-NAF needs (46_eb R301). -/
def RwnafOk (s : State) : Prop :=
  s.ctx.ebFlags.kbltz = true →
    s.build.mixedStrip = false ∧ 3 ≤ s.build.ebWidth ∧ s.build.ebWidth ≤ 6

/-- What halving needs (46_eb R303). -/
def HalveOk (s : State) : Prop := s.build.m % 2 = 1 ∧ s.ctx.eb.n % 2 = 1 ∧ 3 ≤ s.ctx.eb.n

/-- What the multiplication method `v` needs beyond its unit (46_eb R301, R303). -/
def MulOk (s : State) : EbMul → Prop
  | .basic => True
  | .lwnaf => True
  | .rwnaf => RwnafOk s
  | .lodah => True
  | .halve => HalveOk s

/-- What the inversion variant `v` needs beyond its unit (44_fb R212). -/
def InvOk (s : State) (v : FbInv) : Prop := v = .basic → s.build.m % 2 = 1

/-- The configuration that each command needs: the converse of the column `NoValidConfig` of the table of
60_exceptions R353, with the presence of a named variant (00_scope R14, 92 D28). `FB.INV.SIM` as `FB.INV` (44_fb
R218; log 27, DEDUCED). -/
def ConfigOk (s : State) : Instr → Prop
  | .nop | .clrerr => True
  | .ctxInit => s.status.init = false ∧
    ¬(s.build.hasFp = true ∧ s.build.fpRdc = .sparse ∧ s.ctx.sfCnt = 0)
  | .dvZero sp _ | .dvCopy sp _ _ | .dvCmp sp _ _ =>
    (sp = 5 ∨ sp = 7 → s.build.hasFp = true) ∧ (sp = 6 ∨ sp = 8 → s.build.hasFb = true)
  | .bnAdd .. | .bnSub .. | .bnMul .. | .bnSqr .. | .bnDiv .. | .bnMod .. | .bnGcd .. | .bnLsh ..
  | .bnRsh .. | .recNaf .. | .recJsf .. | .recWin .. => True
  | .recTnaf .. => FbUp s ∧ s.ctx.ebFlags.kbltz = true
  | .recReg .. => False
  | .fpAdd .. | .fpSub .. | .fpNeg .. | .fpDbl .. | .fpHlv .. | .fpMul .. | .fpSqr .. | .fpInv ..
  | .fpExp .. | .fpSrt .. | .fpCmp .. | .fpConv .. | .fpBack .. | .fpMuln .. => FpUp s
  | .fpExpMonty .. => FpUp s ∧ s.build.expMonty = true
  | .fpRdc .. => FpUp s ∧ (s.build.fpRdc = .sparse → s.ctx.sfCnt ≠ 0)
  | .fpRdcn .. => FpUp s ∧ .monty ∈ s.build.rdcSet
  | .fpRdcs .. => FpUp s ∧ .sparse ∈ s.build.rdcSet ∧ s.ctx.sfCnt ≠ 0
  | .fbAdd .. | .fbMul .. | .fbSqr .. | .fbMuln .. | .fbRdc .. | .fbSrt .. | .fbTrc .. | .fbCmp .. => FbUp s
  | .fbSlv .. => FbUp s ∧ s.build.m % 2 = 1
  | .fbInv .. | .fbInvSim .. => FbUp s ∧ InvOk s s.build.fbInv
  | .fbInvBasic .. => FbUp s ∧ .basic ∈ s.build.fbInvSet ∧ InvOk s .basic
  | .fbInvBinar .. => FbUp s ∧ .binar ∈ s.build.fbInvSet
  | .fbInvAlmos .. => FbUp s ∧ .almos ∈ s.build.fbInvSet
  | .fbInvExgcd .. => FbUp s ∧ .exgcd ∈ s.build.fbInvSet
  | .fbInvItoht .. => FbUp s ∧ .itoht ∈ s.build.fbInvSet
  | .fbInvLower .. => FbUp s ∧ .lower ∈ s.build.fbInvSet
  | .epNeg .. | .epDbl .. | .epAdd .. | .epNorm .. | .epMul .. | .epSim .. => FpUp s
  | .epMulBasic .. => FpUp s ∧ .basic ∈ s.build.epMulSet
  | .epMulLwnaf .. => FpUp s ∧ .lwnaf ∈ s.build.epMulSet
  | .epMulRwnaf .. => FpUp s ∧ .rwnaf ∈ s.build.epMulSet
  | .epSimBasic .. => FpUp s ∧ .basic ∈ s.build.epSimSet
  | .epSimTrick .. => FpUp s ∧ .trick ∈ s.build.epSimSet
  | .epSimInter .. => FpUp s ∧ .inter ∈ s.build.epSimSet
  | .epSimJoint .. => FpUp s ∧ .joint ∈ s.build.epSimSet
  | .ebNeg .. | .ebDbl .. | .ebAdd .. | .ebNorm .. | .ebSim .. => EbUp s
  | .ebFrb .. => EbUp s ∧ s.ctx.ebFlags.kbltz = true
  | .ebHlv .. => EbUp s ∧ s.build.m % 2 = 1
  | .ebMul .. => EbUp s ∧ MulOk s s.build.ebMul
  | .ebMulBasic .. => EbUp s ∧ .basic ∈ s.build.ebMulSet
  | .ebMulLwnaf .. => EbUp s ∧ .lwnaf ∈ s.build.ebMulSet
  | .ebMulRwnaf .. => EbUp s ∧ .rwnaf ∈ s.build.ebMulSet ∧ RwnafOk s
  | .ebMulLodah .. => EbUp s ∧ .lodah ∈ s.build.ebMulSet
  | .ebMulHalve .. => EbUp s ∧ .halve ∈ s.build.ebMulSet ∧ HalveOk s
  | .ebSimBasic .. => EbUp s ∧ .basic ∈ s.build.ebSimSet
  | .ebSimTrick .. => EbUp s ∧ .trick ∈ s.build.ebSimSet
  | .ebSimInter .. => EbUp s ∧ .inter ∈ s.build.ebSimSet
  | .ebSimJoint .. => EbUp s ∧ .joint ∈ s.build.ebSimSet

/-! The binary curve and the half-trace, as the rules write them. -/

/-- H(c) = Σ_{i ≤ (m−1)/2} c^(2^(2i)) (44_fb R209). -/
def State.halfTrace (s : State) (c : Nat) : Nat :=
  (List.range ((s.build.m - 1) / 2 + 1)).foldl
    (fun h i => h ^^^ (fun x => s.mulFb x x)^[2 * i] c) 0

/-- P + Q = R by the formulas of 46_eb R280, a quotient λ = u/v being the λ of the field with λ·v = u. -/
inductive EbSum (s : State) : Pt → Pt → Pt → Prop where
  | zeroLeft (Q : Pt) : EbSum s .inf Q Q
  | zeroRight (P : Pt) : EbSum s P .inf P
  | opposite (x y : Nat) : EbSum s (.aff x y) (.aff x (x ^^^ y)) .inf
  | double (x y lam x3 y3 : Nat) : x ≠ 0 → lam < 2 ^ s.build.m →
      s.mulFb lam x = s.mulFb x x ^^^ y →
      x3 = s.mulFb lam lam ^^^ lam ^^^ s.ctx.eb.a →
      y3 = s.mulFb x x ^^^ s.mulFb (lam ^^^ 1) x3 → EbSum s (.aff x y) (.aff x y) (.aff x3 y3)
  | chord (x1 y1 x2 y2 lam x3 y3 : Nat) : x1 ≠ x2 → lam < 2 ^ s.build.m →
      s.mulFb lam (x1 ^^^ x2) = y1 ^^^ y2 →
      x3 = s.mulFb lam lam ^^^ lam ^^^ x1 ^^^ x2 ^^^ s.ctx.eb.a →
      y3 = s.mulFb lam (x1 ^^^ x3) ^^^ x3 ^^^ y1 → EbSum s (.aff x1 y1) (.aff x2 y2) (.aff x3 y3)

/-! The prime curve as Mathlib has it. -/

/-- y² = x³ + ax + b over GF(p) (45_ep R240). -/
def primeCurve (p a b : Nat) : WeierstrassCurve.Affine (ZMod p) where
  a₁ := 0
  a₂ := 0
  a₃ := 0
  a₄ := a
  a₆ := b

/-- The curve of the context (45_ep R240). -/
def State.curve (s : State) : WeierstrassCurve.Affine (ZMod s.ctx.fpP) :=
  primeCurve s.ctx.fpP (s.valFp s.ctx.ep.a) (s.valFp s.ctx.ep.b)

/-- The abstract point `q` is the point `P` of a curve over GF(p). -/
def PtIs {p : Nat} {W : WeierstrassCurve.Affine (ZMod p)} : W.Point → Pt → Prop
  | .zero, q => q = .inf
  | .some x y _, q => q = .aff x.val y.val

/-- A result of comparing a with b (10_state R40): 0 equal, 1 less, 2 greater. -/
def CmpIs (c : CmpResult) (a b : Nat) : Prop :=
  (a = b → c = .equal) ∧ (a < b → c = .less) ∧ (b < a → c = .greater)

/-- Every register as 10_state R62 to R64 say it is after reset. -/
structure IsReset (t : State) : Prop where
  n : ∀ r : Reg, t.n[r] = ⟨false, 0⟩
  used : ∀ r : Reg, t.n[r].used t.build.W = 1
  fp : ∀ r : Reg, t.fp[r] = 0
  fb : ∀ r : Reg, t.fb[r] = 0
  ep : ∀ r : Reg, t.ep[r] = ⟨0, 0, 0, false⟩
  eb : ∀ r : Reg, t.eb[r] = ⟨0, 0, 0, false⟩
  dv : ∀ r : Reg, t.dv[r] = 0
  rc : ∀ r : Reg, t.rc[r].len = 0 ∧ ∀ i, t.rc[r].d.getD i 0 = 0
  status : t.status.word = 0
  err : t.err.word = 0
  flags : t.flags.word = 0
  vec : ∀ v : CtxVec, t.ctx.vec v = 0
  fpU : t.ctx.fpU = 0
  sparse : t.ctx.sfCnt = 0 ∧ t.ctx.sfTop = 0 ∧ ∀ x ∈ t.ctx.sfTerms, x = ⟨false, 0⟩
  poly : ∀ e : PolyExp, t.ctx.exp e = 0
  ebFlags : t.ctx.ebFlags.word = 0
  running : t.running = none

end Sys2Proof.Machine
end

