-- ==== Sys2Proof/WellFormed.lean ====
section
/-! DEFINITION. The operand-field checks of 30_encoding R104 that do not look at register contents.
The decoder lets such an instruction through; its meaning raises `InvalidInput`, at the priority of
an undefined encoding (60_exceptions R332, R338). -/

namespace Sys2Proof

/-- An instruction whose operand fields pass every check of 30_encoding R104. -/
def Instr.wf : Instr → Bool
  | .dvZero sp _ => spFile sp
  | .dvCopy sp _ _ => spFile sp
  | .dvCmp sp _ _ => spCompared sp
  | .bnDiv rd rc _ _ => !(rd == rc)
  | .recNaf _ _ w => signedWidth w
  | .recJsf rd _ _ => rd.val % 2 == 0
  | .recTnaf _ _ w => signedWidth w
  | .recWin _ _ w => unsignedWidth w
  | .recReg _ _ w => signedWidth w
  | .fbInvSim rd ra cnt => simRange rd ra cnt
  | .nop => true
  | .ctxInit => true
  | .clrerr => true
  | .bnAdd _ _ _ => true
  | .bnSub _ _ _ => true
  | .bnMul _ _ _ => true
  | .bnSqr _ _ => true
  | .bnMod _ _ _ => true
  | .bnGcd _ _ _ => true
  | .bnLsh _ _ _ => true
  | .bnRsh _ _ _ => true
  | .fpAdd _ _ _ => true
  | .fpSub _ _ _ => true
  | .fpNeg _ _ => true
  | .fpDbl _ _ => true
  | .fpHlv _ _ => true
  | .fpMul _ _ _ => true
  | .fpSqr _ _ => true
  | .fpInv _ _ => true
  | .fpExp _ _ _ => true
  | .fpExpMonty _ _ _ => true
  | .fpSrt _ _ => true
  | .fpCmp _ _ => true
  | .fpConv _ _ => true
  | .fpBack _ _ => true
  | .fpMuln _ _ _ => true
  | .fpRdc _ _ => true
  | .fpRdcn _ _ => true
  | .fpRdcs _ _ => true
  | .fbAdd _ _ _ => true
  | .fbMul _ _ _ => true
  | .fbSqr _ _ => true
  | .fbMuln _ _ _ => true
  | .fbRdc _ _ => true
  | .fbSrt _ _ => true
  | .fbTrc _ => true
  | .fbSlv _ _ => true
  | .fbInv _ _ => true
  | .fbInvBasic _ _ => true
  | .fbInvBinar _ _ => true
  | .fbInvAlmos _ _ => true
  | .fbInvExgcd _ _ => true
  | .fbInvItoht _ _ => true
  | .fbInvLower _ _ => true
  | .fbCmp _ _ => true
  | .epNeg _ _ => true
  | .epDbl _ _ => true
  | .epAdd _ _ _ => true
  | .epNorm _ _ => true
  | .epMul _ _ _ => true
  | .epMulBasic _ _ _ => true
  | .epMulLwnaf _ _ _ => true
  | .epMulRwnaf _ _ _ => true
  | .epSim _ _ _ _ _ => true
  | .epSimBasic _ _ _ _ _ => true
  | .epSimTrick _ _ _ _ _ => true
  | .epSimInter _ _ _ _ _ => true
  | .epSimJoint _ _ _ _ _ => true
  | .ebNeg _ _ => true
  | .ebDbl _ _ => true
  | .ebAdd _ _ _ => true
  | .ebNorm _ _ => true
  | .ebFrb _ _ => true
  | .ebHlv _ _ => true
  | .ebMul _ _ _ => true
  | .ebMulBasic _ _ _ => true
  | .ebMulLwnaf _ _ _ => true
  | .ebMulRwnaf _ _ _ => true
  | .ebMulLodah _ _ _ => true
  | .ebMulHalve _ _ _ => true
  | .ebSim _ _ _ _ _ => true
  | .ebSimBasic _ _ _ _ _ => true
  | .ebSimTrick _ _ _ _ _ => true
  | .ebSimInter _ _ _ _ _ => true
  | .ebSimJoint _ _ _ _ _ => true

end Sys2Proof
end

