-- ==== Sys2Proof/Certificates/Slice0/Obligations.lean ====
section
/-! DEFINITION. The statements for the provers. Each docstring names the rule of spec/ it formalises. -/

section

open Sys2Proof Sys2Proof.Machine

/-! Encoding. -/

/-- Decoding the word of any instruction, with every operand at every value, gives it back (30_encoding R91
to R95). -/
def Obligations.DecodeOfEncode : Prop := ∀ i : Instr, decode (encode i) = .ok i

/-- A word that decodes is the word of the instruction it decodes to: every word has one meaning and no bit
of it is dropped (30_encoding R97, R98). -/
def Obligations.EncodeOfDecode : Prop :=
  ∀ (c : Word) (i : Instr), decode c = .ok i → encode i = c

/-- Words of every family, written from 30_encoding R91, R93, R95. -/
def Obligations.TableWordsDecode : Prop :=
  decode 0x00000000 = .ok .nop ∧
  decode 0x11310005 = .ok (.dvCopy 5 3 1) ∧
  decode 0x24401500 = .ok (.bnDiv 4 5 0 1) ∧
  decode 0x2771003C = .ok (.bnLsh 7 1 60) ∧
  decode 0x31012000 = .ok (.recJsf 0 1 2) ∧
  decode 0x45201000 = .ok (.fpMul 2 0 1) ∧
  decode 0x4E200010 = .ok (.fpRdcn 2 0) ∧
  decode 0x59800001 = .ok (.fbInvSim 8 0 1) ∧
  decode 0x70201020 = .ok (.epMulLwnaf 2 0 1) ∧
  decode 0x91513240 = .ok (.ebSimJoint 5 1 3 2 0) ∧
  decode 0x58100070 = .error .badVar ∧
  decode 0xA0000000 = .error .badOp ∧
  decode 0x45201001 = .error .notZero

/-! The command port. -/

/-- A word written to `CMD` that decodes is run in that very step, in the state its issue leaves, where nothing
more is presented meanwhile (30_encoding R99). A command in progress, which other transactions overtook, is run
in the step in which nothing more is presented (20_memory R80). A word that is issued and does not decode, or is
overtaken at once, does in its step what that command in progress would. That a command takes one step, and when
a transaction is presented, is the model's choice (log 17, log 19; the list of arrivals is its form of the host,
log 3). -/
def Obligations.StepRunsIssuedCommand : Prop :=
  (∀ (s s' : State) (c : Word) (i : Instr), Takes s (.write cmdAddr c.toNat) s' → Quiet s' →
    (s.status.errf = false ∨ opOf c = 2) → decode c = .ok i →
    step s = exec i (issue c { s' with inbox := s'.inbox.tail })) ∧
  (∀ (s : State) (c : Word) (i : Instr), s.running = some c → Quiet s → decode c = .ok i →
    step s = exec i { s with inbox := s.inbox.tail }) ∧
  ∀ (s s' : State) (c : Word), Takes s (.write cmdAddr c.toNat) s' →
    (s.status.errf = false ∨ opOf c = 2) → step s = step (issue c s')

/-- An undefined encoding that is issued, and an instruction whose operand fields fail their check, raise
`InvalidInput` with the word's `op`, and change no other state of the block (60_exceptions R332, R336, 30_encoding
R98, R99). That the fault is taken in the step in which nothing more is presented, and that a pause of the host
ends with it, is the model's choice (log 17, log 19; the list of arrivals is its form of the host, log 3). -/
def Obligations.BadEncodingsFault : Prop :=
  (∀ (s s' : State) (c : Word) (u : Undefined), Takes s (.write cmdAddr c.toNat) s' → Quiet s' →
    (s.status.errf = false ∨ opOf c = 2) → decode c = .error u →
    step s = .next (takeFault .invalidInput (opOf c) { s' with inbox := s'.inbox.tail })) ∧
  (∀ (s : State) (c : Word) (u : Undefined), s.running = some c → Quiet s → decode c = .error u →
    step s = .next (takeFault .invalidInput (opOf c) { s with inbox := s.inbox.tail })) ∧
  ∀ (i : Instr) (s : State), i.wf = false →
    exec i s = .next (takeFault .invalidInput (opOf (encode i)) s)

/-- While `ERRF = 1` a word whose `op` is not that of `CLRERR` is dropped: nothing changes (30_encoding
R99, 60_exceptions R342). -/
def Obligations.ErrorStateDropsCommands : Prop :=
  ∀ (s s' : State) (c : Word), Takes s (.write cmdAddr c.toNat) s' →
    s.status.errf = true → opOf c ≠ 2 → step s = .next s'

/-- 20_memory R80. While a command runs a read of `STATUS` is answered at once, with `BUSY = 1`, `DONE = 0` and
the `ERRF` and `INIT` of that moment (10_state R41), also when older transactions wait; any other transaction
joins those that wait, and the command goes on running. That the command ends in the step in which nothing
more is presented, or the host pauses, is the model's choice: R80 leaves open how long a transaction waits (log
17, log 19). What waited then takes effect before what is presented later, in the order presented. -/
def Obligations.TransactionsWhileBusy : Prop :=
  (∀ (s : State) (c : Word) (rest : List Arrival), StatusOk s → s.running = some c →
    s.inbox = .present (.read statusAddr) :: rest →
    ∃ v, v = 1 + 4 * s.status.errf.toNat + 8 * s.status.init.toNat ∧ v = s.status.word ∧
      step s = .next { s with inbox := rest, reply := some v }) ∧
  (∀ (s : State) (c : Word) (x : Txn) (rest : List Arrival), s.running = some c →
    s.inbox = .present x :: rest → x ≠ .reset → x ≠ .read statusAddr →
    step s = .next { s with inbox := rest, held := s.held ++ [x] }) ∧
  (∀ (s : State) (c : Word), s.running = some c → Quiet s →
    ∃ t, step s = .next t ∧ t.inbox = s.inbox.tail ∧ t.held = s.held ∧ t.reply = s.reply ∧
      t.running = none ∧ t.status.busy = false) ∧
  ∀ (s s' : State) (x : Txn), Takes s x s' → step s = transact x s'

/-- The machine after reset, in every build (10_state R62, R63; the context registers by R64); the platform's
reset, also one that arrives while a command runs and others wait, leaves that state and no part of the
command's result (70_reset R360). That the arrivals still to come stay, and that what waited is kept
whole or dropped whole, is the model's choice (log 18). -/
def Obligations.ResetState : Prop :=
  (∀ b, IsReset (State.resetOf b) ∧ (State.resetOf b).build = b) ∧
  ∀ (s : State) (rest : List Arrival), s.inbox = .present .reset :: rest →
    (s.running = none → s.held = []) →
    ∃ t, step s = .next t ∧ IsReset t ∧ t.build = s.build ∧ t.inbox = rest ∧
      (t.held = [] ∨ t.held = s.held)

/-! Invariants that every step keeps. -/

/-- Every register keeps to its width (10_state R31 to R38, R45 to R56), and no step changes a build
parameter (00_scope R14). -/
def Obligations.StepKeepsWidths : Prop :=
  ∀ s t : State, Fits s → step s = .next t → Fits t ∧ t.build = s.build

/-- `STATUS` and `ERR` keep agreeing, and the kinds that are never raised never appear (10_state R41, R42,
60_exceptions R331, R343). -/
def Obligations.StepKeepsStatus : Prop := ∀ s t : State, StatusOk s → step s = .next t → StatusOk t

/-- A locked context stays one that passed `CTX.INIT` with its derived registers (47_sys R322, 70_reset
R365). -/
def Obligations.StepKeepsContext : Prop :=
  ∀ s t : State, Fits s ∧ CtxSound s → step s = .next t → CtxSound t

/-- The three invariants hold after reset, in every build. -/
def Obligations.ResetMeetsInvariants : Prop :=
  ∀ b : Build, Fits (State.resetOf b) ∧ StatusOk (State.resetOf b) ∧ CtxSound (State.resetOf b)

/-- 70_reset R365: after a successful `CTX.INIT` the context stays as it is until a reset: no other
transaction and no command changes a context register or clears `INIT`. -/
def Obligations.ContextIsLocked : Prop :=
  ∀ s t : State, s.status.init = true → (∀ a ∈ s.inbox, a ≠ .present .reset) →
    (∀ x ∈ s.held, x ≠ .reset) → step s = .next t → t.ctx = s.ctx ∧ t.status.init = true

/-! Whole-machine rules. -/

/-- Every command ends in a next state, and the machine stops only on a host write whose value is wider than
its location (70_reset R380; the stop is the model's choice, log 5). -/
def Obligations.CommandsNeverStop : Prop :=
  (∀ (i : Instr) (s : State), ∃ t, exec i s = .next t) ∧
  ∀ s : State, (∃ t, step s = .next t) ∨
    (step s = .fault .valueWiderThanLocation ∧ ∃ a v s' l, Takes s (.write a v) s' ∧
      locate s.build a = some l ∧ 2 ^ l.width s.build ≤ v)

/-- 60_exceptions R336: a command either completes or leaves the state before it, apart from `STATUS` and
`ERR`: `ERRF = 1`, `DONE = BUSY = 0`, and `ERR` holds the kind and the `op` of the command, the word
`(op << 8) | K`. -/
def Obligations.FaultsArePrecise : Prop :=
  ∀ (i : Instr) (s t : State), exec i s = .next t →
    (t.status.done = true ∧ t.status.busy = false ∧ t.running = none) ∨
    ∃ k, (k = .precisionExceeded ∨ k = .invalidInput ∨ k = .noValidConfig) ∧
      t = { s with
            status := ⟨false, false, true, s.status.init⟩
            err := ⟨some k, opOf (encode i)⟩
            running := none } ∧
      t.err.word = 256 * opOf (encode i) + k.code

/-- 10_state R40: `FLAGS.CMP` is written only by the three compare commands, `FLAGS.T` only by `FB.TRC` and
`FP.SRT`, a faulting command leaves both, and no command reads `FLAGS`: with other flags before, it leaves
the same state but for the flags it does not write, and those it writes on completion are the same. -/
def Obligations.FlagsAreResultsOnly : Prop :=
  ∀ (i : Instr) (s t : State), exec i s = .next t →
    ((∀ sp ra rb, i ≠ .dvCmp sp ra rb) → (∀ ra rb, i ≠ .fpCmp ra rb) →
      (∀ ra rb, i ≠ .fbCmp ra rb) → t.flags.cmp = s.flags.cmp) ∧
    ((∀ ra, i ≠ .fbTrc ra) → (∀ rd ra, i ≠ .fpSrt rd ra) → t.flags.t = s.flags.t) ∧
    (t.status.done = false → t.flags = s.flags) ∧
    ∀ f : Flags, ∃ u, exec i { s with flags := f } = .next u ∧ { u with flags := t.flags } = t ∧
      (t.status.done = true →
        ((∃ sp ra rb, i = .dvCmp sp ra rb) ∨ (∃ ra rb, i = .fpCmp ra rb) ∨ (∃ ra rb, i = .fbCmp ra rb) →
          u.flags.cmp = t.flags.cmp) ∧
        ((∃ ra, i = .fbTrc ra) ∨ (∃ rd ra, i = .fpSrt rd ra) → u.flags.t = t.flags.t))

/-- No command but `CTX.INIT` changes a context register or `INIT`, and no command but `CLRERR` clears
`ERRF` (10_state R41, 47_sys R323). -/
def Obligations.StickyBits : Prop :=
  ∀ (i : Instr) (s t : State), exec i s = .next t →
    (i ≠ .ctxInit → t.ctx = s.ctx ∧ t.status.init = s.status.init) ∧
    (i ≠ .clrerr → s.status.errf = true → t.status.errf = true)

/-- A command of a field or curve unit, and `REC.TNAF`, raises `NoValidConfig` while its unit is absent or
`INIT = 0` (70_reset R363), before any test of register contents (60_exceptions R338), its operand fields
being legal. -/
def Obligations.UnitsNeedContext : Prop :=
  ∀ (i : Instr) (s : State), i.wf = true →
    ((opOf (encode i) / 16 = 4 ∨ opOf (encode i) / 16 = 6 ∨ opOf (encode i) / 16 = 7) →
      (s.build.hasFp = false ∨ s.status.init = false) →
      exec i s = .next (takeFault .noValidConfig (opOf (encode i)) s)) ∧
    ((opOf (encode i) / 16 = 5 ∨ opOf (encode i) / 16 = 8 ∨ opOf (encode i) / 16 = 9 ∨
        opOf (encode i) = 0x32) →
      (s.build.hasFb = false ∨ s.status.init = false) →
      exec i s = .next (takeFault .noValidConfig (opOf (encode i)) s))

/-! The operand window. -/

/-- A host write of a writable location replaces its value, by the bits the location keeps, and changes no
other location but `N[r].used`, which is a function of the digits (20_memory R73, R74, 10_state R31).
Which bits each location keeps is read from the table of R74 (log 26, DEDUCED). -/
def Obligations.HostWriteReplacesOneLocation : Prop :=
  ∀ (s s' : State) (a : HAddr) (v : Nat) (l : Loc),
    Fits s → Takes s (.write a v) s' → locate s.build a = some l →
    (l.access = .readWrite ∨ l.access = .untilInit ∧ s.status.init = false) →
    v < 2 ^ l.width s.build →
    ∃ t, step s = .next t ∧ t.inbox = s'.inbox ∧ t.held = s'.held ∧
      readLoc t l = kept s.build v l ∧
      ∀ (a' : HAddr) (l' : Loc), locate s.build a' = some l' → l' ≠ l →
        (∀ r i, ¬(l = .nDigit r i ∧ l' = .nUsed r)) → readLoc t l' = readLoc s l'

/-- 20_memory R72: a host read of a mapped location returns its value and changes no state. -/
def Obligations.HostReadChangesNothing : Prop :=
  ∀ (s s' : State) (a : HAddr) (l : Loc), Takes s (.read a) s' → locate s.build a = some l →
    step s = .next { s' with reply := some (readLoc s l) }

/-- 20_memory R75, R78 with 60_exceptions R337: on an unmapped location a read returns 0 and a write stores
nothing, a write to a read-only location stores nothing, and each raises `InvalidInput`; a write to a
context location while `INIT = 1` stores nothing and raises `NoValidConfig`; `ERR` has `op` 0, `DONE` and
`BUSY` are as they were. -/
def Obligations.BadAccessesFault : Prop :=
  ∀ (s s' : State) (a : HAddr) (v : Nat),
    (locate s.build a = none → Takes s (.read a) s' →
      step s = .next { s' with
        status := { s.status with errf := true }, err := ⟨some .invalidInput, 0⟩, reply := some 0 }) ∧
    ((locate s.build a = none ∨
        ∃ l, locate s.build a = some l ∧ l.access = .readOnly ∧ v < 2 ^ l.width s.build) →
      Takes s (.write a v) s' →
      step s = .next { s' with
        status := { s.status with errf := true }, err := ⟨some .invalidInput, 0⟩ }) ∧
    ((∃ l, locate s.build a = some l ∧ l.access = .untilInit ∧ v < 2 ^ l.width s.build) →
      s.status.init = true → Takes s (.write a v) s' →
      step s = .next { s' with
        status := { s.status with errf := true }, err := ⟨some .noValidConfig, 0⟩ })

/-! System commands. -/

/-- `NOP` completes and changes nothing; `CLRERR` completes and clears `ERRF` and `ERR`, and nothing else
changes (47_sys R321, R323). -/
def Obligations.NopAndClrerr : Prop :=
  ∀ s : State,
    exec .nop s = .next { s with
      status := ⟨false, true, s.status.errf, s.status.init⟩, running := none } ∧
    exec .clrerr s = .next { s with
      status := ⟨false, true, false, s.status.init⟩, err := ⟨none, 0⟩, running := none }

/-- `CTX.INIT` (47_sys R322, 70_reset R365): on a context that meets its checks it completes, sets `INIT`,
derives u, `ONE_FP` and R² mod p, and leaves every staged register and every register file; on a locked
context, in a `SPARSE` build without a sparse form, and on a staged value that fails a check, it faults,
in that order, and computes nothing. -/
def Obligations.CtxInit : Prop :=
  ∀ s : State,
    (s.status.init = false →
      (s.build.hasFp = true → FpStaged s.build s.ctx ∧ (s.build.fpRdc = .sparse → s.ctx.sfCnt ≠ 0)) →
      (s.build.hasFb = true → FbStaged s.build s.ctx) →
      ∃ t, exec .ctxInit s = .next t ∧ t.status = ⟨false, true, s.status.errf, true⟩ ∧
        (s.build.hasFp = true → FpDerived s.build t.ctx) ∧
        (s.build.hasFp = false →
          t.ctx.fpU = s.ctx.fpU ∧ t.ctx.fpOne = s.ctx.fpOne ∧ t.ctx.rr = s.ctx.rr) ∧
        (∀ v, v ≠ .fpOne → t.ctx.vec v = s.ctx.vec v) ∧ (∀ e, t.ctx.exp e = s.ctx.exp e) ∧
        t.ctx.sfCnt = s.ctx.sfCnt ∧ t.ctx.sfTop = s.ctx.sfTop ∧ t.ctx.sfTerms = s.ctx.sfTerms ∧
        t.ctx.ebFlags = s.ctx.ebFlags ∧ t.flags = s.flags ∧ t.err = s.err ∧ t.build = s.build ∧
        ∀ f, SameFile s t f) ∧
    (s.status.init = true ∨
        (s.build.hasFp = true ∧ s.build.fpRdc = .sparse ∧ s.ctx.sfCnt = 0) →
      exec .ctxInit s = .next (takeFault .noValidConfig 1 s)) ∧
    (s.status.init = false → ¬(s.build.hasFp = true ∧ s.build.fpRdc = .sparse ∧ s.ctx.sfCnt = 0) →
      ((s.build.hasFp = true ∧ ¬FpStaged s.build s.ctx) ∨
        (s.build.hasFb = true ∧ ¬FbStaged s.build s.ctx)) →
      exec .ctxInit s = .next (takeFault .invalidInput 1 s))

/-! Digit vectors. -/

/-- `DV.ZERO` and `DV.COPY` on each of the seven files, every bit (40_dv R111, R112); a file of an absent
unit is `NoValidConfig` (R110). -/
def Obligations.DvZeroAndCopy : Prop :=
  ∀ (s : State) (rd ra : Reg),
    (∃ t, exec (.dvZero 2 rd) s = .next t ∧ t.dv[rd] = 0 ∧ OnlyDv s t rd) ∧
    (∃ t, exec (.dvZero 3 rd) s = .next t ∧ t.n[rd] = ⟨false, 0⟩ ∧ OnlyN s t rd) ∧
    (∃ t, exec (.dvZero 4 rd) s = .next t ∧ t.rc[rd].holds [] ∧ OnlyRc s t [rd]) ∧
    (s.build.hasFp = true → ∃ t, exec (.dvZero 5 rd) s = .next t ∧ t.fp[rd] = 0 ∧ OnlyFp s t rd) ∧
    (s.build.hasFb = true → ∃ t, exec (.dvZero 6 rd) s = .next t ∧ t.fb[rd] = 0 ∧ OnlyFb s t rd) ∧
    (s.build.hasFp = true →
      ∃ t, exec (.dvZero 7 rd) s = .next t ∧ t.ep[rd] = ⟨0, 0, 0, false⟩ ∧ OnlyEp s t rd) ∧
    (s.build.hasFb = true →
      ∃ t, exec (.dvZero 8 rd) s = .next t ∧ t.eb[rd] = ⟨0, 0, 0, false⟩ ∧ OnlyEb s t rd) ∧
    (∃ t, exec (.dvCopy 2 rd ra) s = .next t ∧ t.dv[rd] = s.dv[ra] ∧ OnlyDv s t rd) ∧
    (∃ t, exec (.dvCopy 3 rd ra) s = .next t ∧ t.n[rd] = s.n[ra] ∧ OnlyN s t rd) ∧
    (∃ t, exec (.dvCopy 4 rd ra) s = .next t ∧ t.rc[rd] = s.rc[ra] ∧ OnlyRc s t [rd]) ∧
    (s.build.hasFp = true →
      ∃ t, exec (.dvCopy 5 rd ra) s = .next t ∧ t.fp[rd] = s.fp[ra] ∧ OnlyFp s t rd) ∧
    (s.build.hasFb = true →
      ∃ t, exec (.dvCopy 6 rd ra) s = .next t ∧ t.fb[rd] = s.fb[ra] ∧ OnlyFb s t rd) ∧
    (s.build.hasFp = true →
      ∃ t, exec (.dvCopy 7 rd ra) s = .next t ∧ t.ep[rd] = s.ep[ra] ∧ OnlyEp s t rd) ∧
    (s.build.hasFb = true →
      ∃ t, exec (.dvCopy 8 rd ra) s = .next t ∧ t.eb[rd] = s.eb[ra] ∧ OnlyEb s t rd) ∧
    ∀ sp : Nib, ((sp = 5 ∨ sp = 7) ∧ s.build.hasFp = false ∨
        (sp = 6 ∨ sp = 8) ∧ s.build.hasFb = false) →
      exec (.dvZero sp rd) s = .next (takeFault .noValidConfig 0x10 s) ∧
      exec (.dvCopy sp rd ra) s = .next (takeFault .noValidConfig 0x11 s)

/-- The compare commands write the order of the two values, as unsigned integers (magnitudes for `N`), to
`FLAGS.CMP` and change no register (40_dv R113, 43_fp R175, 44_fb R210); a file of an absent unit is
`NoValidConfig` (40_dv R110). That `FP.CMP` and `FB.CMP` complete in a false context, with some result, is
the model's choice (log 10). -/
def Obligations.CompareCommands : Prop :=
  ∀ (s : State) (ra rb : Reg),
    (∃ t, exec (.dvCmp 2 ra rb) s = .next t ∧ CmpIs t.flags.cmp s.dv[ra] s.dv[rb] ∧
      t.flags.t = s.flags.t ∧ OnlyFlags s t) ∧
    (∃ t, exec (.dvCmp 3 ra rb) s = .next t ∧ CmpIs t.flags.cmp s.n[ra].mag s.n[rb].mag ∧
      t.flags.t = s.flags.t ∧ OnlyFlags s t) ∧
    (s.build.hasFp = true → ∃ t, exec (.dvCmp 5 ra rb) s = .next t ∧
      CmpIs t.flags.cmp s.fp[ra] s.fp[rb] ∧ t.flags.t = s.flags.t ∧ OnlyFlags s t) ∧
    (s.build.hasFb = true → ∃ t, exec (.dvCmp 6 ra rb) s = .next t ∧
      CmpIs t.flags.cmp s.fb[ra] s.fb[rb] ∧ t.flags.t = s.flags.t ∧ OnlyFlags s t) ∧
    (fpReady s = true → s.fp[ra] < s.ctx.fpP → s.fp[rb] < s.ctx.fpP →
      ∃ t, exec (.fpCmp ra rb) s = .next t ∧ t.flags.t = s.flags.t ∧ OnlyFlags s t ∧
        (Nat.Prime s.ctx.fpP → CmpIs t.flags.cmp s.fp[ra] s.fp[rb])) ∧
    (fbReady s = true → s.fb[ra] < 2 ^ s.build.m → s.fb[rb] < 2 ^ s.build.m →
      ∃ t, exec (.fbCmp ra rb) s = .next t ∧ t.flags.t = s.flags.t ∧ OnlyFlags s t ∧
        (FieldPoly s.build.m (fbPoly s) → CmpIs t.flags.cmp s.fb[ra] s.fb[rb])) ∧
    (s.build.hasFp = false → exec (.dvCmp 5 ra rb) s = .next (takeFault .noValidConfig 0x12 s)) ∧
    (s.build.hasFb = false → exec (.dvCmp 6 ra rb) s = .next (takeFault .noValidConfig 0x12 s))

/-! Integers. -/

/-- The exact integer commands: the sum, difference, product and square as integers, canonical; a result too
long for `BN_DIGS` digits is `PrecisionExceeded`, a negative zero among the sources `InvalidInput`
(41_bn R120, R121, R123 to R126). -/
def Obligations.BnExactResults : Prop :=
  ∀ (s : State) (rd ra rb : Reg) (i : Instr) (r : Int) (srcs : List BigReg),
    ((i, r, srcs) = (.bnAdd rd ra rb, s.n[ra].val + s.n[rb].val, [s.n[ra], s.n[rb]]) ∨
      (i, r, srcs) = (.bnSub rd ra rb, s.n[ra].val - s.n[rb].val, [s.n[ra], s.n[rb]]) ∨
      (i, r, srcs) = (.bnMul rd ra rb, s.n[ra].val * s.n[rb].val, [s.n[ra], s.n[rb]]) ∨
      (i, r, srcs) = (.bnSqr rd ra, s.n[ra].val ^ 2, [s.n[ra]])) →
    ((∃ x ∈ srcs, x = ⟨true, 0⟩) → exec i s = .next (takeFault .invalidInput (opOf (encode i)) s)) ∧
    ((∀ x ∈ srcs, x ≠ ⟨true, 0⟩) → 2 ^ (s.build.W * s.build.bnDigs) ≤ r.natAbs →
      exec i s = .next (takeFault .precisionExceeded (opOf (encode i)) s)) ∧
    ((∀ x ∈ srcs, x ≠ ⟨true, 0⟩) → r.natAbs < 2 ^ (s.build.W * s.build.bnDigs) →
      ∃ t, exec i s = .next t ∧ t.n[rd].val = r ∧ t.n[rd] ≠ ⟨true, 0⟩ ∧ OnlyN s t rd)

/-- `BN.DIV` and `BN.MOD`: quotient rounded toward zero, remainder of the dividend's sign, residue in
[0, |b|), division by zero `InvalidInput` (41_bn R127, R128). -/
def Obligations.BnDivision : Prop :=
  ∀ (s : State) (rd rc ra rb : Reg), Fits s → s.n[ra] ≠ ⟨true, 0⟩ → s.n[rb] ≠ ⟨true, 0⟩ →
    (s.n[rb].val = 0 → rd ≠ rc →
      exec (.bnDiv rd rc ra rb) s = .next (takeFault .invalidInput 0x24 s) ∧
      exec (.bnMod rd ra rb) s = .next (takeFault .invalidInput 0x25 s)) ∧
    (s.n[rb].val ≠ 0 → rd ≠ rc →
      ∃ t, exec (.bnDiv rd rc ra rb) s = .next t ∧
        s.n[ra].val = t.n[rd].val * s.n[rb].val + t.n[rc].val ∧
        t.n[rc].mag < s.n[rb].mag ∧
        (t.n[rc].val = 0 ∨ (t.n[rc].val < 0 ↔ s.n[ra].val < 0)) ∧
        t.n[rd] ≠ ⟨true, 0⟩ ∧ t.n[rc] ≠ ⟨true, 0⟩ ∧
        Frame s t [.n] ∧ t.flags = s.flags ∧ ∀ r, r ≠ rd → r ≠ rc → t.n[r] = s.n[r]) ∧
    (s.n[rb].val ≠ 0 →
      ∃ t, exec (.bnMod rd ra rb) s = .next t ∧ 0 ≤ t.n[rd].val ∧ t.n[rd].val < s.n[rb].mag ∧
        (∃ q, s.n[ra].val = q * s.n[rb].val + t.n[rd].val) ∧ OnlyN s t rd)

/-- `BN.GCD`, `BN.LSH` and `BN.RSH` (41_bn R129 to R131): the gcd of the magnitudes, and shifts of the
magnitude that keep the sign, an overlong left shift being `PrecisionExceeded`. -/
def Obligations.BnGcdAndShifts : Prop :=
  ∀ (s : State) (rd ra rb : Reg) (k : BitVec 16), Fits s → s.n[ra] ≠ ⟨true, 0⟩ →
    (s.n[rb] ≠ ⟨true, 0⟩ → ∃ t, exec (.bnGcd rd ra rb) s = .next t ∧
      t.n[rd] = ⟨false, Nat.gcd s.n[ra].mag s.n[rb].mag⟩ ∧ OnlyN s t rd) ∧
    (s.n[ra].mag * 2 ^ k.toNat < 2 ^ (s.build.W * s.build.bnDigs) →
      ∃ t, exec (.bnLsh rd ra k) s = .next t ∧
        t.n[rd] = ⟨s.n[ra].sign, s.n[ra].mag * 2 ^ k.toNat⟩ ∧ OnlyN s t rd) ∧
    (2 ^ (s.build.W * s.build.bnDigs) ≤ s.n[ra].mag * 2 ^ k.toNat →
      exec (.bnLsh rd ra k) s = .next (takeFault .precisionExceeded 0x27 s)) ∧
    ∃ t, exec (.bnRsh rd ra k) s = .next t ∧ t.n[rd].mag = s.n[ra].mag / 2 ^ k.toNat ∧
      (t.n[rd].sign = true ↔ s.n[ra].sign = true ∧ t.n[rd].mag ≠ 0) ∧ OnlyN s t rd

/-! Recodings. -/

/-- 42_rec R144: what a program may rely on after `REC.NAF` (that the last digit is positive is derived
there); no digit for the scalar 0 (R143). That every entry above the length is zero is R142 (log 6, DEDUCED:
R373 says less). -/
def Obligations.NafProperties : Prop :=
  ∀ (s : State) (rd ra : Reg) (w : Nib), s.build.wf = true → Fits s → s.n[ra].sign = false →
    2 ≤ w.val → w.val ≤ 8 →
    ∃ t ds, exec (.recNaf rd ra w) s = .next t ∧ t.rc[rd].holds ds ∧ OnlyRc s t [rd] ∧
      binaryValue ds = s.n[ra].mag ∧
      (∀ d ∈ ds, d = 0 ∨ (d % 2 = 1 ∧ d.natAbs < 2 ^ (w.val - 1))) ∧
      (∀ i j, i < j → j < i + w.val → ds.getD i 0 = 0 ∨ ds.getD j 0 = 0) ∧
      ds.length ≤ bitlen s.n[ra].mag + 1 ∧ (0 < s.n[ra].mag → 0 < ds.getLastD 0) ∧
      (s.n[ra].mag = 0 → ds.length = 0)

/-- 42_rec R146 with the three properties of R145 and its length: what a program may rely on after `REC.JSF`.
That the last column is not zero is how the loop of R145 ends. That every entry above the length is zero is
R142 (log 6, DEDUCED: R373 says less). -/
def Obligations.JsfProperties : Prop :=
  ∀ (s : State) (rd ra rb : Reg), s.build.wf = true → Fits s → s.n[ra].sign = false →
    s.n[rb].sign = false → rd.val % 2 = 0 →
    ∃ t us vs, exec (.recJsf rd ra rb) s = .next t ∧ t.rc[rd].holds us ∧ t.rc[rd + 1].holds vs ∧
      OnlyRc s t [rd, rd + 1] ∧ us.length = vs.length ∧
      us.length ≤ max (bitlen s.n[ra].mag) (bitlen s.n[rb].mag) + 1 ∧
      (s.n[ra].mag = 0 → s.n[rb].mag = 0 → us.length = 0) ∧
      (us.length ≠ 0 → us.getLastD 0 ≠ 0 ∨ vs.getLastD 0 ≠ 0) ∧
      binaryValue us = s.n[ra].mag ∧ binaryValue vs = s.n[rb].mag ∧
      (∀ u ∈ us, u = -1 ∨ u = 0 ∨ u = 1) ∧ (∀ v ∈ vs, v = -1 ∨ v = 0 ∨ v = 1) ∧
      ∀ i, ((us.getD i 0 = 0 ∧ vs.getD i 0 = 0) ∨ (us.getD (i + 1) 0 = 0 ∧ vs.getD (i + 1) 0 = 0) ∨
          (us.getD (i + 2) 0 = 0 ∧ vs.getD (i + 2) 0 = 0)) ∧
        us.getD (i + 1) 0 * us.getD i 0 ≠ -1 ∧ vs.getD (i + 1) 0 * vs.getD i 0 ≠ -1 ∧
        (us.getD (i + 1) 0 * us.getD i 0 ≠ 0 → vs.getD (i + 1) 0 ≠ 0 ∧ vs.getD i 0 = 0) ∧
        (vs.getD (i + 1) 0 * vs.getD i 0 ≠ 0 → us.getD (i + 1) 0 ≠ 0 ∧ us.getD i 0 = 0)

/-- 42_rec R151: what a program may rely on after `REC.WIN`. That every entry above the length is zero is R142
(log 6, DEDUCED: R373 says less). -/
def Obligations.WinProperties : Prop :=
  ∀ (s : State) (rd ra : Reg) (w : Nib), s.build.wf = true → Fits s → s.n[ra].sign = false →
    1 ≤ w.val → w.val ≤ 8 →
    ∃ (t : State) (ds : List Nat), exec (.recWin rd ra w) s = .next t ∧
      t.rc[rd].holds (ds.map Int.ofNat) ∧
      OnlyRc s t [rd] ∧ (∀ d ∈ ds, d < 2 ^ w.val) ∧
      s.n[ra].mag = ∑ i ∈ Finset.range ds.length, ds.getD i 0 * 2 ^ (w.val * i) ∧
      ds.length = (bitlen s.n[ra].mag + w.val - 1) / w.val

/-- `REC.TNAF` writes a sequence that meets the four conditions of 42_rec R148 whenever one exists, whatever
the free values are, in a context that is true (70_reset R368); none for k = 0. The points are a group on
which φ is an endomorphism (R149). That every entry above the length is zero is R142 (log 6, DEDUCED: R373
says less). -/
def Obligations.TnafQualifies : Prop :=
  ∀ (s : State) (A : Type) [AddCommGroup A] (g : A → Pt) (F : A →+ A) (G : A) (rd ra : Reg) (w : Nib),
    FbGood s → EbTrue s → EbGroup s A g → (∀ P, s.frob (g P) = g (F P)) →
    g G = .aff s.ctx.eb.gx s.ctx.eb.gy → 2 ≤ s.ctx.eb.n → s.ctx.ebFlags.kbltz = true →
    s.n[ra].sign = false → 2 ≤ w.val → w.val ≤ 8 →
    (∃ ds, Qualifies s w.val s.n[ra].mag ds) →
    ∃ t ds, exec (.recTnaf rd ra w) s = .next t ∧ t.rc[rd].holds ds ∧ OnlyRc s t [rd] ∧
      Qualifies s w.val s.n[ra].mag ds ∧ (s.n[ra].mag = 0 → ds = [])

/-- `REC.REG` raises `NoValidConfig` in every configuration after its operand check; a scalar that is
negative zero or negative, either of the two of `REC.JSF`, is `InvalidInput` for the recodings that have
an algorithm; `REC.TNAF` off a Koblitz curve is `NoValidConfig` (42_rec R140, R148, R152). -/
def Obligations.RecodingFaults : Prop :=
  ∀ (s : State) (rd ra rb : Reg) (w : Nib),
    (2 ≤ w.val → w.val ≤ 8 → exec (.recReg rd ra w) s = .next (takeFault .noValidConfig 0x34 s)) ∧
    (w.val < 2 ∨ 8 < w.val → exec (.recReg rd ra w) s = .next (takeFault .invalidInput 0x34 s)) ∧
    (s.n[ra].sign = true →
      exec (.recNaf rd ra w) s = .next (takeFault .invalidInput 0x30 s) ∧
      exec (.recWin rd ra w) s = .next (takeFault .invalidInput 0x33 s)) ∧
    (s.n[ra].sign = true ∨ s.n[rb].sign = true →
      exec (.recJsf rd ra rb) s = .next (takeFault .invalidInput 0x31 s)) ∧
    (fbReady s = true → s.ctx.ebFlags.kbltz = true → s.n[ra].sign = true →
      exec (.recTnaf rd ra w) s = .next (takeFault .invalidInput 0x32 s)) ∧
    (2 ≤ w.val → w.val ≤ 8 → s.ctx.ebFlags.kbltz = false →
      exec (.recTnaf rd ra w) s = .next (takeFault .noValidConfig 0x32 s))

/-! The prime field. -/

/-- The Comba multiplier is exact (43_fp R162): its three-digit accumulator never overflows when
n < 2^W − 1. -/
def Obligations.CombaIsExact : Prop :=
  ∀ W n a b : Nat, 0 < W → n + 1 < 2 ^ W → a < 2 ^ (W * n) → b < 2 ^ (W * n) →
    comba W n a b = a * b

/-- Montgomery reduction returns a·R⁻¹ mod p in [0, p) for a < R·p (43_fp R163). -/
def Obligations.MontgomeryReduction : Prop :=
  ∀ W n m u a : Nat, 0 < W → n + 1 < 2 ^ W → m < 2 ^ (W * n) → m % 2 = 1 →
    (m * u + 1) % 2 ^ W = 0 → a < 2 ^ (W * n) * m →
    rdcn W n m u a < m ∧ rdcn W n m u a * 2 ^ (W * n) % m = a % m

/-- The linear commands are arithmetic mod the prime p on the register values (43_fp R165 to R169). That they
complete with a canonical value also where p is composite is the model's choice (log 10). -/
def Obligations.FpLinear : Prop :=
  ∀ (s : State) (rd ra rb : Reg), FpGood s → s.fp[ra] < s.ctx.fpP → s.fp[rb] < s.ctx.fpP →
    (∃ t, exec (.fpAdd rd ra rb) s = .next t ∧ t.fp[rd] < s.ctx.fpP ∧ OnlyFp s t rd ∧
      (Nat.Prime s.ctx.fpP → t.fp[rd] = (s.fp[ra] + s.fp[rb]) % s.ctx.fpP)) ∧
    (∃ t, exec (.fpSub rd ra rb) s = .next t ∧ t.fp[rd] < s.ctx.fpP ∧ OnlyFp s t rd ∧
      (Nat.Prime s.ctx.fpP → t.fp[rd] = (s.fp[ra] + (s.ctx.fpP - s.fp[rb])) % s.ctx.fpP)) ∧
    (∃ t, exec (.fpNeg rd ra) s = .next t ∧ t.fp[rd] < s.ctx.fpP ∧ OnlyFp s t rd ∧
      (Nat.Prime s.ctx.fpP → t.fp[rd] = (s.ctx.fpP - s.fp[ra]) % s.ctx.fpP)) ∧
    (∃ t, exec (.fpDbl rd ra) s = .next t ∧ t.fp[rd] < s.ctx.fpP ∧ OnlyFp s t rd ∧
      (Nat.Prime s.ctx.fpP → t.fp[rd] = 2 * s.fp[ra] % s.ctx.fpP)) ∧
    ∃ t, exec (.fpHlv rd ra) s = .next t ∧ t.fp[rd] < s.ctx.fpP ∧ OnlyFp s t rd ∧
      (Nat.Prime s.ctx.fpP → 2 * t.fp[rd] % s.ctx.fpP = s.fp[ra])

/-- `FP.MUL` and `FP.SQR` multiply residues mod the prime p in both builds, with the digits of 43_fp R170 and
R171; `FP.MULN` writes the exact product (R179). That they complete with a canonical value also where p is
composite is the model's choice (log 10). -/
def Obligations.FpMultiplication : Prop :=
  ∀ (s : State) (rd ra rb : Reg), FpGood s → s.fp[ra] < s.ctx.fpP → s.fp[rb] < s.ctx.fpP →
    (∀ (i : Instr) (a b : Nat),
      ((i, a, b) = (.fpMul rd ra rb, s.fp[ra], s.fp[rb]) ∨
        (i, a, b) = (.fpSqr rd ra, s.fp[ra], s.fp[ra])) →
      ∃ t, exec i s = .next t ∧ t.fp[rd] < s.ctx.fpP ∧ OnlyFp s t rd ∧
        (Nat.Prime s.ctx.fpP → s.valFp t.fp[rd] = s.valFp a * s.valFp b % s.ctx.fpP ∧
          (s.build.fpRdc = .monty → t.fp[rd] * bigR s.build % s.ctx.fpP = a * b % s.ctx.fpP) ∧
          (s.build.fpRdc = .sparse → t.fp[rd] = a * b % s.ctx.fpP))) ∧
    ∃ t, exec (.fpMuln rd ra rb) s = .next t ∧ OnlyDv s t rd ∧
      (Nat.Prime s.ctx.fpP → t.dv[rd] = s.fp[ra] * s.fp[rb])

/-- `FP.CONV` writes a·R mod p and `FP.BACK` a·R⁻¹ mod p under `MONTY`, each a copy under `SPARSE`, for prime
p (43_fp R176, R177), and each undoes the other, in both builds (R181). That they complete with a canonical
value also where p is composite is the model's choice (log 10). -/
def Obligations.FpConversions : Prop :=
  ∀ (s : State) (rd re ra : Reg), FpGood s → s.fp[ra] < s.ctx.fpP →
    (∃ t u, exec (.fpConv rd ra) s = .next t ∧ exec (.fpBack re rd) t = .next u ∧
      OnlyFp s t rd ∧ OnlyFp t u re ∧ t.fp[rd] < s.ctx.fpP ∧
      (Nat.Prime s.ctx.fpP →
        (s.build.fpRdc = .monty → t.fp[rd] = s.fp[ra] * bigR s.build % s.ctx.fpP) ∧
        (s.build.fpRdc = .sparse → t.fp[rd] = s.fp[ra]) ∧ u.fp[re] = s.fp[ra])) ∧
    ∃ t u, exec (.fpBack rd ra) s = .next t ∧ exec (.fpConv re rd) t = .next u ∧
      OnlyFp s t rd ∧ OnlyFp t u re ∧ t.fp[rd] < s.ctx.fpP ∧
      (Nat.Prime s.ctx.fpP →
        (s.build.fpRdc = .monty → t.fp[rd] * bigR s.build % s.ctx.fpP = s.fp[ra]) ∧
        (s.build.fpRdc = .sparse → t.fp[rd] = s.fp[ra]) ∧ u.fp[re] = s.fp[ra])

/-- An invariant of the commands: in a locked context, true or false mathematically, a command leaves canonical
registers canonical, in every file (10_state R32 to R35, 70_reset R368, 93 U10; log 10 for what else the
model chooses in a false context). -/
def Obligations.CommandsKeepCanonical : Prop :=
  ∀ (i : Instr) (s t : State), s.build.wf = true → Fits s → CtxSound s → s.status.init = true →
    Canonical s → exec i s = .next t → Canonical t

/-- `FP.INV` for prime p: the residue of the result is the inverse; zero is `InvalidInput` (43_fp R172). -/
def Obligations.FpInversion : Prop :=
  ∀ (s : State) (rd ra : Reg), FpGood s → Nat.Prime s.ctx.fpP → s.fp[ra] < s.ctx.fpP →
    (s.fp[ra] ≠ 0 → ∃ t, exec (.fpInv rd ra) s = .next t ∧ t.fp[rd] < s.ctx.fpP ∧
      s.valFp s.fp[ra] * s.valFp t.fp[rd] % s.ctx.fpP = 1 ∧ OnlyFp s t rd) ∧
    (s.fp[ra] = 0 → exec (.fpInv rd ra) s = .next (takeFault .invalidInput 0x47 s))

/-- `FP.EXP` and `FP.EXP.MONTY` for prime p: the power of the residue, for a negative exponent the power of
its inverse; zero to a negative power is `InvalidInput` (43_fp R173, R178). That they complete with a
canonical value also where p is composite is the model's choice (log 10). -/
def Obligations.FpExponentiation : Prop :=
  ∀ (s : State) (rd ra rb : Reg) (i : Instr), FpGood s → s.fp[ra] < s.ctx.fpP →
    s.n[rb] ≠ ⟨true, 0⟩ →
    (i = .fpExp rd ra rb ∨ i = .fpExpMonty rd ra rb ∧ s.build.expMonty = true) →
    (0 ≤ s.n[rb].val → ∃ t, exec i s = .next t ∧ t.fp[rd] < s.ctx.fpP ∧ OnlyFp s t rd ∧
      (Nat.Prime s.ctx.fpP →
        s.valFp t.fp[rd] = s.valFp s.fp[ra] ^ s.n[rb].mag % s.ctx.fpP)) ∧
    (s.n[rb].val < 0 → s.fp[ra] ≠ 0 → ∃ t, exec i s = .next t ∧ t.fp[rd] < s.ctx.fpP ∧
      OnlyFp s t rd ∧ (Nat.Prime s.ctx.fpP →
        s.valFp t.fp[rd] * s.valFp s.fp[ra] ^ s.n[rb].mag % s.ctx.fpP = 1)) ∧
    (s.n[rb].val < 0 → s.fp[ra] = 0 → exec i s = .next (takeFault .invalidInput 0x48 s))

/-- `FP.SRT` for prime p: a root of a square, whichever of the two the free value chooses, and `FLAGS.T`; no
register changes for a non-square (43_fp R174). -/
def Obligations.FpSquareRoot : Prop :=
  ∀ (s : State) (rd ra : Reg), FpGood s → Nat.Prime s.ctx.fpP → s.fp[ra] < s.ctx.fpP →
    ∃ t, exec (.fpSrt rd ra) s = .next t ∧ Frame s t [.fp] ∧ t.flags.cmp = s.flags.cmp ∧
      (∀ r, r ≠ rd → t.fp[r] = s.fp[r]) ∧
      (t.flags.t = true ↔ ∃ y, y * y % s.ctx.fpP = s.valFp s.fp[ra]) ∧
      (t.flags.t = true → t.fp[rd] < s.ctx.fpP ∧
        s.valFp t.fp[rd] * s.valFp t.fp[rd] % s.ctx.fpP = s.valFp s.fp[ra]) ∧
      (t.flags.t = false → t.fp = s.fp)

/-- The reduction commands for prime p: a·R⁻¹ mod p for a < R·p, a mod p for a < R², by the build's back-end
for `FP.RDC`; beyond the range `InvalidInput`, without a sparse form `NoValidConfig` (43_fp R185 to R187).
A named variant that the build lacks is `NoValidConfig` (00_scope R14, 30_encoding R96); that `FP.RDCN` may be
lacking is the model's reading (log 20). That the commands complete with a canonical value also where p is
composite is the model's choice (log 10). -/
def Obligations.FpReduction : Prop :=
  ∀ (s : State) (rd ra : Reg) (i : Instr), FpGood s →
    ((i = .fpRdcn rd ra ∧ .monty ∈ s.build.rdcSet ∨ i = .fpRdc rd ra ∧ s.build.fpRdc = .monty) →
      (s.dv[ra] < bigR s.build * s.ctx.fpP → ∃ t, exec i s = .next t ∧ t.fp[rd] < s.ctx.fpP ∧
        OnlyFp s t rd ∧ (Nat.Prime s.ctx.fpP →
          t.fp[rd] * bigR s.build % s.ctx.fpP = s.dv[ra] % s.ctx.fpP)) ∧
      (bigR s.build * s.ctx.fpP ≤ s.dv[ra] →
        exec i s = .next (takeFault .invalidInput 0x4E s))) ∧
    ((i = .fpRdcs rd ra ∧ .sparse ∈ s.build.rdcSet ∨ i = .fpRdc rd ra ∧ s.build.fpRdc = .sparse) →
      (s.ctx.sfCnt = 0 → exec i s = .next (takeFault .noValidConfig 0x4E s)) ∧
      (s.ctx.sfCnt ≠ 0 → s.dv[ra] < bigR s.build ^ 2 → ∃ t, exec i s = .next t ∧
        t.fp[rd] < s.ctx.fpP ∧ OnlyFp s t rd ∧
        (Nat.Prime s.ctx.fpP → t.fp[rd] = s.dv[ra] % s.ctx.fpP)) ∧
      (s.ctx.sfCnt ≠ 0 → bigR s.build ^ 2 ≤ s.dv[ra] →
        exec i s = .next (takeFault .invalidInput 0x4E s))) ∧
    (i = .fpRdcn rd ra ∧ .monty ∉ s.build.rdcSet ∨ i = .fpRdcs rd ra ∧ .sparse ∉ s.build.rdcSet →
      exec i s = .next (takeFault .noValidConfig 0x4E s))

/-! The binary field. -/

/-- `FB.ADD`, `FB.MUL`, `FB.SQR`, `FB.MULN` and `FB.RDC` are polynomial addition, product and remainder over
GF(2), for f irreducible (44_fb R201 to R206); a value above 2n digits is `InvalidInput` for `FB.RDC`. That
they complete with a canonical value also where f is reducible is the model's choice (log 10). -/
def Obligations.FbPolynomialArithmetic : Prop :=
  ∀ (s : State) (rd ra rb : Reg) (A B D F : Polynomial (ZMod 2)), FbGood s →
    IsPoly s.fb[ra] A → IsPoly s.fb[rb] B → IsPoly s.dv[ra] D →
    IsPoly (fbPoly s) F →
    (s.fb[ra] < 2 ^ s.build.m → s.fb[rb] < 2 ^ s.build.m →
      (∃ t, exec (.fbAdd rd ra rb) s = .next t ∧ t.fb[rd] < 2 ^ s.build.m ∧ OnlyFb s t rd ∧
        (FieldPoly s.build.m (fbPoly s) → IsPoly t.fb[rd] (A + B))) ∧
      (∃ t, exec (.fbMul rd ra rb) s = .next t ∧ t.fb[rd] < 2 ^ s.build.m ∧ OnlyFb s t rd ∧
        (FieldPoly s.build.m (fbPoly s) → IsPoly t.fb[rd] (A * B %ₘ F))) ∧
      ∃ t, exec (.fbMuln rd ra rb) s = .next t ∧ OnlyDv s t rd ∧
        (FieldPoly s.build.m (fbPoly s) → IsPoly t.dv[rd] (A * B))) ∧
    (s.fb[ra] < 2 ^ s.build.m →
      ∃ t, exec (.fbSqr rd ra) s = .next t ∧ t.fb[rd] < 2 ^ s.build.m ∧ OnlyFb s t rd ∧
        (FieldPoly s.build.m (fbPoly s) → IsPoly t.fb[rd] (A ^ 2 %ₘ F))) ∧
    (s.dv[ra] < 2 ^ (s.build.W * (2 * s.build.fbDigs)) →
      ∃ t, exec (.fbRdc rd ra) s = .next t ∧ t.fb[rd] < 2 ^ s.build.m ∧ OnlyFb s t rd ∧
        (FieldPoly s.build.m (fbPoly s) → IsPoly t.fb[rd] (D %ₘ F))) ∧
    (2 ^ (s.build.W * (2 * s.build.fbDigs)) ≤ s.dv[ra] →
      exec (.fbRdc rd ra) s = .next (takeFault .invalidInput 0x54 s))

/-- `FB.SRT` writes the square root, `FB.TRC` a trace bit that is 0 exactly when λ² + λ = a has a solution,
and `FB.SLV`, for odd m, the half-trace H(a), which is such a solution when there is one; m even is
`NoValidConfig` (44_fb R207 to R209). -/
def Obligations.FbRootTraceHalfTrace : Prop :=
  ∀ (s : State) (rd ra : Reg), FbGood s → FieldPoly s.build.m (fbPoly s) →
    s.fb[ra] < 2 ^ s.build.m →
    (∃ t, exec (.fbSrt rd ra) s = .next t ∧ t.fb[rd] < 2 ^ s.build.m ∧
      s.mulFb t.fb[rd] t.fb[rd] = s.fb[ra] ∧ OnlyFb s t rd) ∧
    (∃ t, exec (.fbTrc ra) s = .next t ∧ OnlyFlags s t ∧ t.flags.cmp = s.flags.cmp ∧
      (t.flags.t = false ↔ ∃ x, x < 2 ^ s.build.m ∧ s.mulFb x x ^^^ x = s.fb[ra])) ∧
    (s.build.m % 2 = 1 → ∃ t, exec (.fbSlv rd ra) s = .next t ∧ t.fb[rd] = s.halfTrace s.fb[ra] ∧
      t.fb[rd] < 2 ^ s.build.m ∧ OnlyFb s t rd ∧
      ((∃ x, x < 2 ^ s.build.m ∧ s.mulFb x x ^^^ x = s.fb[ra]) →
        s.mulFb t.fb[rd] t.fb[rd] ^^^ t.fb[rd] = s.fb[ra])) ∧
    (s.build.m % 2 = 0 → exec (.fbSlv rd ra) s = .next (takeFault .noValidConfig 0x57 s))

/-- `FB.INV` and its six variants write the inverse; zero is `InvalidInput`. A named variant that the build
lacks is `NoValidConfig`, and so is `BASIC`, under its name or as the variant that `FB.INV` runs, when m is
even (44_fb R211 to R217, R219, 00_scope R14). -/
def Obligations.FbInversion : Prop :=
  ∀ (s : State) (rd ra : Reg) (v : FbInv) (i : Instr), FbGood s →
    (i = fbInvOf v rd ra ∨ i = .fbInv rd ra ∧ v = s.build.fbInv) →
    (v ∉ s.build.fbInvSet → exec i s = .next (takeFault .noValidConfig 0x58 s)) ∧
    (v = .basic → s.build.m % 2 = 0 → exec i s = .next (takeFault .noValidConfig 0x58 s)) ∧
    (v ∈ s.build.fbInvSet → (v = .basic → s.build.m % 2 = 1) → s.fb[ra] < 2 ^ s.build.m →
      FieldPoly s.build.m (fbPoly s) → s.fb[ra] ≠ 0 →
      ∃ t, exec i s = .next t ∧ t.fb[rd] < 2 ^ s.build.m ∧
        s.mulFb s.fb[ra] t.fb[rd] = 1 ∧ OnlyFb s t rd) ∧
    (v ∈ s.build.fbInvSet → (v = .basic → s.build.m % 2 = 1) → s.fb[ra] = 0 →
      exec i s = .next (takeFault .invalidInput 0x58 s))

/-- `FB.INV.SIM` writes the inverse of each source, also where the ranges overlap, and no other register; a
zero source is `InvalidInput` (44_fb R218). In a build whose `FB_INV` is `BASIC`, with m even, it takes
`NoValidConfig`, whatever the sources hold, as `FB.INV` does (R211, R212; DEDUCED, log 27). -/
def Obligations.FbSimultaneousInversion : Prop :=
  ∀ (s : State) (rd ra : Reg) (cnt : Nib), FbGood s →
    ra.val + cnt.val ≤ 15 → rd.val + cnt.val ≤ 15 →
    ((s.build.fbInv = .basic → s.build.m % 2 = 1) →
      (∀ j : Nib, j ≤ cnt → s.fb[ra + j] < 2 ^ s.build.m) →
      (FieldPoly s.build.m (fbPoly s) → (∀ j : Nib, j ≤ cnt → s.fb[ra + j] ≠ 0) →
        ∃ t, exec (.fbInvSim rd ra cnt) s = .next t ∧ Frame s t [.fb] ∧ t.flags = s.flags ∧
          (∀ j : Nib, j ≤ cnt → t.fb[rd + j] < 2 ^ s.build.m ∧
            s.mulFb s.fb[ra + j] t.fb[rd + j] = 1) ∧
          ∀ r, (∀ j : Nib, j ≤ cnt → r ≠ rd + j) → t.fb[r] = s.fb[r]) ∧
      ((∃ j : Nib, j ≤ cnt ∧ s.fb[ra + j] = 0) →
        exec (.fbInvSim rd ra cnt) s = .next (takeFault .invalidInput 0x59 s))) ∧
    (s.build.fbInv = .basic → s.build.m % 2 = 0 →
      exec (.fbInvSim rd ra cnt) s = .next (takeFault .noValidConfig 0x59 s))

/-! The prime curve. -/

/-- `EP.NEG` writes the digits of 45_ep R245, which stand for the opposite point; `EP.NORM` keeps the point
and writes its unique normalised value, and normalising again changes nothing (R243, R248), in a context that
is true (70_reset R368). -/
def Obligations.EpDeterminedPointCommands : Prop :=
  ∀ (s : State) (rd ra : Reg), FpGood s → EpTrue s →
    epCanon s s.ep[ra] = true → epOn s s.ep[ra] = true →
    (∃ t, exec (.epNeg rd ra) s = .next t ∧ OnlyEp s t rd ∧
      t.ep[rd] = (if s.ep[ra].z = 0 then ⟨0, 0, 0, false⟩
        else ⟨s.ep[ra].x, (s.ctx.fpP - s.ep[ra].y) % s.ctx.fpP, s.ep[ra].z, s.ep[ra].norm⟩) ∧
      s.epPt t.ep[rd] = s.epOps.neg (s.epPt s.ep[ra])) ∧
    ∃ t u, exec (.epNorm rd ra) s = .next t ∧ exec (.epNorm rd rd) t = .next u ∧ OnlyEp s t rd ∧
      s.epPt t.ep[rd] = s.epPt s.ep[ra] ∧ epCanon s t.ep[rd] = true ∧ u.ep[rd] = t.ep[rd] ∧
      (s.ep[ra].z = 0 → t.ep[rd] = ⟨0, 0, 0, false⟩) ∧
      (s.ep[ra].z ≠ 0 → t.ep[rd].norm = true ∧ t.ep[rd].z = s.ctx.fpOne)

/-- 45_ep R244 for `EP.DBL` and `EP.ADD`: whatever the free values are, in a context that is true (70_reset
R368) the result register is canonical and stands for the point the group law gives, infinity in its
canonical form. -/
def Obligations.EpRepresentatives : Prop :=
  ∀ (s : State) (rd ra rb : Reg) (i : Instr) (R : Pt), FpGood s → EpTrue s →
    epCanon s s.ep[ra] = true → epOn s s.ep[ra] = true →
    epCanon s s.ep[rb] = true → epOn s s.ep[rb] = true →
    ((i, R) = (.epAdd rd ra rb, s.epOps.add (s.epPt s.ep[ra]) (s.epPt s.ep[rb])) ∨
      (i, R) = (.epDbl rd ra, s.epOps.dbl (s.epPt s.ep[ra]))) →
    ∃ t, exec i s = .next t ∧ OnlyEp s t rd ∧ epCanon s t.ep[rd] = true ∧ s.epPt t.ep[rd] = R ∧
      (R = .inf → t.ep[rd] = ⟨0, 0, 0, false⟩)

/-- The loops of 45_ep R257 to R260 and R265 to R267 compute [k]P, respectively [k]P + [l]Q, in any
commutative group (45_ep R262, R268). -/
def Obligations.LoopsInAnyGroup : Prop :=
  ∀ (α A : Type) [AddCommGroup A] (o : PtOps α) (g : A → α), GroupImage o A g →
    ∀ (P Q : A) (k l w : Nat), 1 ≤ w →
      mulBasic o k (g P) = g (k • P) ∧
      (2 ≤ w → mulLwnaf o w k (g P) = g (k • P) ∧ mulRwnaf o w k (g P) = g (k • P) ∧
        simInter o w k (g P) l (g Q) = g (k • P + l • Q)) ∧
      simTrick o w k (g P) l (g Q) = g (k • P + l • Q) ∧
      simJoint o k (g P) l (g Q) = g (k • P + l • Q)

/-- `EP.MUL` and its three variants write the normalised [k]P of the group of points of the curve, as
Mathlib has that group, for every integer k, in a context that is true (45_ep R255 to R262, 70_reset R368). -/
def Obligations.EpScalarMultiplication : Prop :=
  ∀ (s : State) (rd ra rb : Reg) (v : EpMul) (i : Instr) [Fact (Nat.Prime s.ctx.fpP)],
    FpGood s → EpTrue s → epCanon s s.ep[ra] = true → epOn s s.ep[ra] = true →
    s.n[rb] ≠ ⟨true, 0⟩ →
    (i = epMulOf v rd ra rb ∧ v ∈ s.build.epMulSet ∨ i = .epMul rd ra rb) →
    ∃ (t : State) (P : s.curve.Point), PtIs P (s.epPt s.ep[ra]) ∧ exec i s = .next t ∧
      OnlyEp s t rd ∧ PtIs (s.n[rb].val • P) (s.epPt t.ep[rd]) ∧ epCanon s t.ep[rd] = true ∧
      (s.epPt t.ep[rd] = .inf → t.ep[rd] = ⟨0, 0, 0, false⟩) ∧
      (s.epPt t.ep[rd] ≠ .inf → t.ep[rd].norm = true ∧ t.ep[rd].z = s.ctx.fpOne)

/-- `EP.SIM` and its four variants write the normalised [k]P + [l]Q, in a context that is true (45_ep R263 to
R268, 70_reset R368). -/
def Obligations.EpTwoScalarMultiplication : Prop :=
  ∀ (s : State) (rd ra rb rc re : Reg) (v : SimMethod) (i : Instr) [Fact (Nat.Prime s.ctx.fpP)],
    FpGood s → EpTrue s → epCanon s s.ep[ra] = true → epOn s s.ep[ra] = true →
    epCanon s s.ep[rc] = true → epOn s s.ep[rc] = true →
    s.n[rb] ≠ ⟨true, 0⟩ → s.n[re] ≠ ⟨true, 0⟩ →
    (i = epSimOf v rd ra rb rc re ∧ v ∈ s.build.epSimSet ∨ i = .epSim rd ra rb rc re) →
    ∃ (t : State) (P Q : s.curve.Point), PtIs P (s.epPt s.ep[ra]) ∧ PtIs Q (s.epPt s.ep[rc]) ∧
      exec i s = .next t ∧ OnlyEp s t rd ∧
      PtIs (s.n[rb].val • P + s.n[re].val • Q) (s.epPt t.ep[rd]) ∧ epCanon s t.ep[rd] = true ∧
      (s.epPt t.ep[rd] = .inf → t.ep[rd] = ⟨0, 0, 0, false⟩) ∧
      (s.epPt t.ep[rd] ≠ .inf → t.ep[rd].norm = true ∧ t.ep[rd].z = s.ctx.fpOne)

/-! The binary curve. -/

/-- `EB.NEG`, `EB.NORM` and, on a Koblitz curve, `EB.FRB` write the register values of 46_eb R284, R287 and
R288, which stand for −P, P and φ(P); the normalised value is canonical, (x/z, y/z²) with z = 1, and
normalising again changes nothing (R283, R287). Elsewhere `EB.FRB` is `NoValidConfig`. All this in a context
that is true (70_reset R368). -/
def Obligations.EbDeterminedPointCommands : Prop :=
  ∀ (s : State) (rd ra : Reg), FbGood s → EbTrue s →
    ebCanon s s.eb[ra] = true → ebOn s s.eb[ra] = true →
    (∃ t, exec (.ebNeg rd ra) s = .next t ∧ OnlyEb s t rd ∧
      t.eb[rd] = (if s.eb[ra].z = 0 then ⟨0, 0, 0, false⟩
        else ⟨s.eb[ra].x, s.eb[ra].y ^^^ s.mulFb s.eb[ra].x s.eb[ra].z, s.eb[ra].z, s.eb[ra].norm⟩) ∧
      s.ebPt t.eb[rd] = s.ebOps.neg (s.ebPt s.eb[ra])) ∧
    (∃ t u, exec (.ebNorm rd ra) s = .next t ∧ exec (.ebNorm rd rd) t = .next u ∧ OnlyEb s t rd ∧
      s.ebPt t.eb[rd] = s.ebPt s.eb[ra] ∧ ebCanon s t.eb[rd] = true ∧ u.eb[rd] = t.eb[rd] ∧
      (s.eb[ra].z = 0 → t.eb[rd] = ⟨0, 0, 0, false⟩) ∧
      (s.eb[ra].z ≠ 0 → ∃ zi, zi < 2 ^ s.build.m ∧ s.mulFb s.eb[ra].z zi = 1 ∧
        t.eb[rd] = ⟨s.mulFb s.eb[ra].x zi, s.mulFb s.eb[ra].y (s.mulFb zi zi), 1, true⟩)) ∧
    (s.ctx.ebFlags.kbltz = true → ∃ t, exec (.ebFrb rd ra) s = .next t ∧ OnlyEb s t rd ∧
      t.eb[rd] = (if s.eb[ra].z = 0 then ⟨0, 0, 0, false⟩
        else ⟨s.mulFb s.eb[ra].x s.eb[ra].x, s.mulFb s.eb[ra].y s.eb[ra].y,
          s.mulFb s.eb[ra].z s.eb[ra].z, s.eb[ra].norm⟩) ∧
      s.ebPt t.eb[rd] = s.frob (s.ebPt s.eb[ra])) ∧
    (s.ctx.ebFlags.kbltz = false →
      exec (.ebFrb rd ra) s = .next (takeFault .noValidConfig 0x84 s))

/-- `EB.DBL` and `EB.ADD`: whatever the free values are, the result register is canonical and stands for the
point that the formulas of 46_eb R280 give, infinity in its canonical form, in a context that is true (R283,
R285, R286, 70_reset R368). -/
def Obligations.EbRepresentatives : Prop :=
  ∀ (s : State) (rd ra rb : Reg) (i : Instr) (Q : PointReg), FbGood s → EbTrue s →
    ebCanon s s.eb[ra] = true → ebOn s s.eb[ra] = true →
    ebCanon s s.eb[rb] = true → ebOn s s.eb[rb] = true →
    ((i, Q) = (.ebAdd rd ra rb, s.eb[rb]) ∨ (i, Q) = (.ebDbl rd ra, s.eb[ra])) →
    ∃ t, exec i s = .next t ∧ OnlyEb s t rd ∧ ebCanon s t.eb[rd] = true ∧
      EbSum s (s.ebPt s.eb[ra]) (s.ebPt Q) (s.ebPt t.eb[rd]) ∧
      (s.ebPt t.eb[rd] = .inf → t.eb[rd] = ⟨0, 0, 0, false⟩)

/-- `EB.HLV`, for odd m and a point of odd order, in a context that is true (70_reset R368): the normalised Q
in the subgroup generated by P with [2]Q = P; m even is `NoValidConfig` (46_eb R289). `EB.MUL.HALVE` there,
also on a point of odd order outside the subgroup of order n, where the value is the model's reading
(log 9): the normalised Q in that subgroup that the loop of R303 gives, [2^(t−1)]Q = [k']P. -/
def Obligations.EbHalving : Prop :=
  (∀ (s : State) (A : Type) [AddCommGroup A] (g : A → Pt) (rd ra : Reg) (P : A) (r : Nat),
    FbGood s → EbTrue s → EbGroup s A g → ebCanon s s.eb[ra] = true → ebOn s s.eb[ra] = true →
    s.ebPt s.eb[ra] = g P → r % 2 = 1 → r < 2 ^ (s.build.m + 2) → r • P = 0 → s.build.m % 2 = 1 →
    ∃ t Q, exec (.ebHlv rd ra) s = .next t ∧ OnlyEb s t rd ∧ some t.eb[rd] = ebNormal (g Q) ∧
      Q + Q = P ∧ ∃ j : Nat, Q = j • P) ∧
  (∀ (s : State) (A : Type) [AddCommGroup A] (g : A → Pt) (rd ra rb : Reg) (i : Instr) (P : A) (r : Nat),
    FbGood s → EbTrue s → EbGroup s A g → ebCanon s s.eb[ra] = true → ebOn s s.eb[ra] = true →
    s.ebPt s.eb[ra] = g P → s.n[rb] ≠ ⟨true, 0⟩ → r % 2 = 1 → r < 2 ^ (s.build.m + 2) → r • P = 0 →
    s.build.m % 2 = 1 → s.ctx.eb.n % 2 = 1 → 3 ≤ s.ctx.eb.n →
    (i = .ebMulHalve rd ra rb ∧ EbMul.halve ∈ s.build.ebMulSet ∨
      i = .ebMul rd ra rb ∧ s.build.ebMul = .halve) →
    ∃ t Q, exec i s = .next t ∧ OnlyEb s t rd ∧ some t.eb[rd] = ebNormal (g Q) ∧
      (∃ j : Nat, Q = j • P) ∧ 2 ^ (bitlen s.ctx.eb.n - 1) • Q =
        ((2 ^ (bitlen s.ctx.eb.n - 1) * s.n[rb].val) % (s.ctx.eb.n : Int)) • P) ∧
  ∀ (s : State) (rd ra : Reg), s.build.m % 2 = 0 →
    exec (.ebHlv rd ra) s = .next (takeFault .noValidConfig 0x85 s)

/-- `EB.MUL.LODAH`, and `EB.MUL` where it is the build's method: the López-Dahab ladder writes the normalised
[k]P for every integer k, in a context that is true (46_eb R302, R306, 70_reset R368). -/
def Obligations.EbLadder : Prop :=
  ∀ (s : State) (A : Type) [AddCommGroup A] (g : A → Pt) (rd ra rb : Reg) (i : Instr) (P : A),
    FbGood s → EbTrue s → EbGroup s A g →
    ebCanon s s.eb[ra] = true → ebOn s s.eb[ra] = true → s.ebPt s.eb[ra] = g P →
    s.n[rb] ≠ ⟨true, 0⟩ →
    (i = .ebMulLodah rd ra rb ∧ EbMul.lodah ∈ s.build.ebMulSet ∨
      i = .ebMul rd ra rb ∧ s.build.ebMul = .lodah) →
    ∃ t, exec i s = .next t ∧ OnlyEb s t rd ∧ some t.eb[rd] = ebNormal (g (s.n[rb].val • P))

/-- `EB.MUL` and its variants other than the ladder write the normalised [k]P wherever 46_eb R298 to R306
define it: the context is true (70_reset R368), the configuration allows the method, and P has order dividing
n where the method is τ-adic or halves. That [n]P = O, and not that P is a multiple of G, decides there is the
model's reading (log 9). -/
def Obligations.EbScalarMultiplication : Prop :=
  ∀ (s : State) (A : Type) [AddCommGroup A] (g : A → Pt) (rd ra rb : Reg) (v : EbMul) (i : Instr)
    (P : A), FbGood s → EbTrue s → EbGroup s A g →
    ebCanon s s.eb[ra] = true → ebOn s s.eb[ra] = true → s.ebPt s.eb[ra] = g P →
    s.n[rb] ≠ ⟨true, 0⟩ →
    (i = ebMulOf v rd ra rb ∧ v ∈ s.build.ebMulSet ∨ i = .ebMul rd ra rb ∧ v = s.build.ebMul) →
    v ≠ .lodah →
    (v = .rwnaf → s.ctx.ebFlags.kbltz = true →
      s.build.mixedStrip = false ∧ 3 ≤ s.build.ebWidth ∧ s.build.ebWidth ≤ 6) →
    (v = .halve → s.build.m % 2 = 1 ∧ s.ctx.eb.n % 2 = 1 ∧ 3 ≤ s.ctx.eb.n) →
    (v = .halve ∨ (s.ctx.ebFlags.kbltz = true ∧ (v = .lwnaf ∨ v = .rwnaf)) →
      s.ctx.eb.n • P = 0) →
    ∃ t, exec i s = .next t ∧ OnlyEb s t rd ∧ some t.eb[rd] = ebNormal (g (s.n[rb].val • P))

/-- `EB.SIM` and its four variants write the normalised [k]P + [l]Q, for any two points where the method is
not τ-adic, and for points of order dividing n where it is, in a context that is true (46_eb R308 to R313,
70_reset R369, R368; log 9). `EB.SIM.BASIC` multiplies by the build's method. Where the context does not allow
that one it multiplies by double-and-add, and where it is `HALVE` too, which gives [k]P for the points of order
dividing n only: the model's choice (log 16). -/
def Obligations.EbTwoScalarMultiplication : Prop :=
  ∀ (s : State) (A : Type) [AddCommGroup A] (g : A → Pt) (rd ra rb rc re : Reg) (v : SimMethod)
    (i : Instr) (P Q : A), FbGood s → EbTrue s → EbGroup s A g →
    ebCanon s s.eb[ra] = true → ebOn s s.eb[ra] = true → s.ebPt s.eb[ra] = g P →
    ebCanon s s.eb[rc] = true → ebOn s s.eb[rc] = true → s.ebPt s.eb[rc] = g Q →
    s.n[rb] ≠ ⟨true, 0⟩ → s.n[re] ≠ ⟨true, 0⟩ →
    (SimNeedsOrder s v → s.ctx.eb.n • P = 0 ∧ s.ctx.eb.n • Q = 0) →
    (i = ebSimOf v rd ra rb rc re ∧ v ∈ s.build.ebSimSet ∨
      i = .ebSim rd ra rb rc re ∧ v = s.build.ebSim) →
    ∃ t, exec i s = .next t ∧ OnlyEb s t rd ∧
      some t.eb[rd] = ebNormal (g (s.n[rb].val • P + s.n[re].val • Q))

/-- Every command of either curve raises `NoValidConfig` where the table of 60_exceptions R353 and the
command's own rule say so (unit absent, `INIT = 0`, a supersingular curve, `EB.FRB` off a Koblitz curve,
`EB.HLV` for even m, the methods that 46_eb R301 and R303 exclude, by name or as the build's, a variant
that the build lacks); else `InvalidInput` when any source point or scalar is not canonical or, in a build
that checks, any source point is off the curve (45_ep R241, 46_eb R281, 60_exceptions R338). -/
def Obligations.CurveCommandFaults : Prop :=
  ∀ (s : State) (i : Instr), 6 ≤ opOf (encode i) / 16 → opOf (encode i) / 16 ≤ 9 →
    (¬ConfigOk s i → exec i s = .next (takeFault .noValidConfig (opOf (encode i)) s)) ∧
    (ConfigOk s i → BadSource s i ∨ OffCurveSource s i →
      exec i s = .next (takeFault .invalidInput (opOf (encode i)) s))

/-- Every command whose operand fields are legal raises `NoValidConfig` outside the configuration that
60_exceptions R353 asks for, else `InvalidInput` on a source register that is not canonical (R333; the `DV.*`
commands have none), before any other test of contents. That `FB.INV.SIM` needs what `FB.INV`
does is deduced (log 27), and that a build may lack `FP.RDCN` is the reading of log 20. -/
def Obligations.ConfigurationAndSourceFaults : Prop :=
  ∀ (s : State) (i : Instr), i.wf = true →
    (¬ConfigOk s i → exec i s = .next (takeFault .noValidConfig (opOf (encode i)) s)) ∧
    (ConfigOk s i → BadSource s i →
      exec i s = .next (takeFault .invalidInput (opOf (encode i)) s))

end
end

