-- ==== Sys2Proof/Laws/State.lean ====
section
/-! SUPPORT. One lemma per field of `State` for every update that the shared operations make, so that no
proof unfolds a record update. -/

namespace Sys2Proof.Machine

section putNFields

variable (s : State) (rd : Reg) (r : Int)

@[simp] theorem putN_n : (s.putN rd r).n = s.n.set rd ⟨decide (r < 0), digits s.build.W s.build.bnDigs r.natAbs⟩ := rfl
@[simp] theorem putN_fp : (s.putN rd r).fp = s.fp := rfl
@[simp] theorem putN_fb : (s.putN rd r).fb = s.fb := rfl
@[simp] theorem putN_ep : (s.putN rd r).ep = s.ep := rfl
@[simp] theorem putN_eb : (s.putN rd r).eb = s.eb := rfl
@[simp] theorem putN_dv : (s.putN rd r).dv = s.dv := rfl
@[simp] theorem putN_rc : (s.putN rd r).rc = s.rc := rfl
@[simp] theorem putN_status : (s.putN rd r).status = s.status := rfl
@[simp] theorem putN_err : (s.putN rd r).err = s.err := rfl
@[simp] theorem putN_flags : (s.putN rd r).flags = s.flags := rfl
@[simp] theorem putN_ctx : (s.putN rd r).ctx = s.ctx := rfl
@[simp] theorem putN_running : (s.putN rd r).running = s.running := rfl
@[simp] theorem putN_build : (s.putN rd r).build = s.build := rfl
@[simp] theorem putN_inbox : (s.putN rd r).inbox = s.inbox := rfl
@[simp] theorem putN_held : (s.putN rd r).held = s.held := rfl
@[simp] theorem putN_reply : (s.putN rd r).reply = s.reply := rfl
@[simp] theorem putN_tape : (s.putN rd r).tape = s.tape := rfl
@[simp] theorem putN_draws : (s.putN rd r).draws = s.draws := rfl

end putNFields

section putFpFields

variable (s : State) (rd : Reg) (v : Nat)

@[simp] theorem putFp_n : (s.putFp rd v).n = s.n := rfl
@[simp] theorem putFp_fp : (s.putFp rd v).fp = s.fp.set rd (digits s.build.W s.build.fpDigs v) := rfl
@[simp] theorem putFp_fb : (s.putFp rd v).fb = s.fb := rfl
@[simp] theorem putFp_ep : (s.putFp rd v).ep = s.ep := rfl
@[simp] theorem putFp_eb : (s.putFp rd v).eb = s.eb := rfl
@[simp] theorem putFp_dv : (s.putFp rd v).dv = s.dv := rfl
@[simp] theorem putFp_rc : (s.putFp rd v).rc = s.rc := rfl
@[simp] theorem putFp_status : (s.putFp rd v).status = s.status := rfl
@[simp] theorem putFp_err : (s.putFp rd v).err = s.err := rfl
@[simp] theorem putFp_flags : (s.putFp rd v).flags = s.flags := rfl
@[simp] theorem putFp_ctx : (s.putFp rd v).ctx = s.ctx := rfl
@[simp] theorem putFp_running : (s.putFp rd v).running = s.running := rfl
@[simp] theorem putFp_build : (s.putFp rd v).build = s.build := rfl
@[simp] theorem putFp_inbox : (s.putFp rd v).inbox = s.inbox := rfl
@[simp] theorem putFp_held : (s.putFp rd v).held = s.held := rfl
@[simp] theorem putFp_reply : (s.putFp rd v).reply = s.reply := rfl
@[simp] theorem putFp_tape : (s.putFp rd v).tape = s.tape := rfl
@[simp] theorem putFp_draws : (s.putFp rd v).draws = s.draws := rfl

end putFpFields

section putFbFields

variable (s : State) (rd : Reg) (v : Nat)

@[simp] theorem putFb_n : (s.putFb rd v).n = s.n := rfl
@[simp] theorem putFb_fp : (s.putFb rd v).fp = s.fp := rfl
@[simp] theorem putFb_fb : (s.putFb rd v).fb = s.fb.set rd (digits s.build.W s.build.fbDigs v) := rfl
@[simp] theorem putFb_ep : (s.putFb rd v).ep = s.ep := rfl
@[simp] theorem putFb_eb : (s.putFb rd v).eb = s.eb := rfl
@[simp] theorem putFb_dv : (s.putFb rd v).dv = s.dv := rfl
@[simp] theorem putFb_rc : (s.putFb rd v).rc = s.rc := rfl
@[simp] theorem putFb_status : (s.putFb rd v).status = s.status := rfl
@[simp] theorem putFb_err : (s.putFb rd v).err = s.err := rfl
@[simp] theorem putFb_flags : (s.putFb rd v).flags = s.flags := rfl
@[simp] theorem putFb_ctx : (s.putFb rd v).ctx = s.ctx := rfl
@[simp] theorem putFb_running : (s.putFb rd v).running = s.running := rfl
@[simp] theorem putFb_build : (s.putFb rd v).build = s.build := rfl
@[simp] theorem putFb_inbox : (s.putFb rd v).inbox = s.inbox := rfl
@[simp] theorem putFb_held : (s.putFb rd v).held = s.held := rfl
@[simp] theorem putFb_reply : (s.putFb rd v).reply = s.reply := rfl
@[simp] theorem putFb_tape : (s.putFb rd v).tape = s.tape := rfl
@[simp] theorem putFb_draws : (s.putFb rd v).draws = s.draws := rfl

end putFbFields

section putDvFields

variable (s : State) (rd : Reg) (v : Nat)

@[simp] theorem putDv_n : (s.putDv rd v).n = s.n := rfl
@[simp] theorem putDv_fp : (s.putDv rd v).fp = s.fp := rfl
@[simp] theorem putDv_fb : (s.putDv rd v).fb = s.fb := rfl
@[simp] theorem putDv_ep : (s.putDv rd v).ep = s.ep := rfl
@[simp] theorem putDv_eb : (s.putDv rd v).eb = s.eb := rfl
@[simp] theorem putDv_dv : (s.putDv rd v).dv = s.dv.set rd (digits s.build.W s.build.dvDigs v) := rfl
@[simp] theorem putDv_rc : (s.putDv rd v).rc = s.rc := rfl
@[simp] theorem putDv_status : (s.putDv rd v).status = s.status := rfl
@[simp] theorem putDv_err : (s.putDv rd v).err = s.err := rfl
@[simp] theorem putDv_flags : (s.putDv rd v).flags = s.flags := rfl
@[simp] theorem putDv_ctx : (s.putDv rd v).ctx = s.ctx := rfl
@[simp] theorem putDv_running : (s.putDv rd v).running = s.running := rfl
@[simp] theorem putDv_build : (s.putDv rd v).build = s.build := rfl
@[simp] theorem putDv_inbox : (s.putDv rd v).inbox = s.inbox := rfl
@[simp] theorem putDv_held : (s.putDv rd v).held = s.held := rfl
@[simp] theorem putDv_reply : (s.putDv rd v).reply = s.reply := rfl
@[simp] theorem putDv_tape : (s.putDv rd v).tape = s.tape := rfl
@[simp] theorem putDv_draws : (s.putDv rd v).draws = s.draws := rfl

end putDvFields

section putEpFields

variable (s : State) (rd : Reg) (e : PointReg)

@[simp] theorem putEp_n : (s.putEp rd e).n = s.n := rfl
@[simp] theorem putEp_fp : (s.putEp rd e).fp = s.fp := rfl
@[simp] theorem putEp_fb : (s.putEp rd e).fb = s.fb := rfl
@[simp] theorem putEp_ep : (s.putEp rd e).ep = s.ep.set rd (e.fit s.build.W s.build.fpDigs) := rfl
@[simp] theorem putEp_eb : (s.putEp rd e).eb = s.eb := rfl
@[simp] theorem putEp_dv : (s.putEp rd e).dv = s.dv := rfl
@[simp] theorem putEp_rc : (s.putEp rd e).rc = s.rc := rfl
@[simp] theorem putEp_status : (s.putEp rd e).status = s.status := rfl
@[simp] theorem putEp_err : (s.putEp rd e).err = s.err := rfl
@[simp] theorem putEp_flags : (s.putEp rd e).flags = s.flags := rfl
@[simp] theorem putEp_ctx : (s.putEp rd e).ctx = s.ctx := rfl
@[simp] theorem putEp_running : (s.putEp rd e).running = s.running := rfl
@[simp] theorem putEp_build : (s.putEp rd e).build = s.build := rfl
@[simp] theorem putEp_inbox : (s.putEp rd e).inbox = s.inbox := rfl
@[simp] theorem putEp_held : (s.putEp rd e).held = s.held := rfl
@[simp] theorem putEp_reply : (s.putEp rd e).reply = s.reply := rfl
@[simp] theorem putEp_tape : (s.putEp rd e).tape = s.tape := rfl
@[simp] theorem putEp_draws : (s.putEp rd e).draws = s.draws := rfl

end putEpFields

section putEbFields

variable (s : State) (rd : Reg) (e : PointReg)

@[simp] theorem putEb_n : (s.putEb rd e).n = s.n := rfl
@[simp] theorem putEb_fp : (s.putEb rd e).fp = s.fp := rfl
@[simp] theorem putEb_fb : (s.putEb rd e).fb = s.fb := rfl
@[simp] theorem putEb_ep : (s.putEb rd e).ep = s.ep := rfl
@[simp] theorem putEb_eb : (s.putEb rd e).eb = s.eb.set rd (e.fit s.build.W s.build.fbDigs) := rfl
@[simp] theorem putEb_dv : (s.putEb rd e).dv = s.dv := rfl
@[simp] theorem putEb_rc : (s.putEb rd e).rc = s.rc := rfl
@[simp] theorem putEb_status : (s.putEb rd e).status = s.status := rfl
@[simp] theorem putEb_err : (s.putEb rd e).err = s.err := rfl
@[simp] theorem putEb_flags : (s.putEb rd e).flags = s.flags := rfl
@[simp] theorem putEb_ctx : (s.putEb rd e).ctx = s.ctx := rfl
@[simp] theorem putEb_running : (s.putEb rd e).running = s.running := rfl
@[simp] theorem putEb_build : (s.putEb rd e).build = s.build := rfl
@[simp] theorem putEb_inbox : (s.putEb rd e).inbox = s.inbox := rfl
@[simp] theorem putEb_held : (s.putEb rd e).held = s.held := rfl
@[simp] theorem putEb_reply : (s.putEb rd e).reply = s.reply := rfl
@[simp] theorem putEb_tape : (s.putEb rd e).tape = s.tape := rfl
@[simp] theorem putEb_draws : (s.putEb rd e).draws = s.draws := rfl

end putEbFields

section putRcFields

variable (s : State) (rd : Reg) (ds : List Int)

@[simp] theorem putRc_n : (s.putRc rd ds).n = s.n := rfl
@[simp] theorem putRc_fp : (s.putRc rd ds).fp = s.fp := rfl
@[simp] theorem putRc_fb : (s.putRc rd ds).fb = s.fb := rfl
@[simp] theorem putRc_ep : (s.putRc rd ds).ep = s.ep := rfl
@[simp] theorem putRc_eb : (s.putRc rd ds).eb = s.eb := rfl
@[simp] theorem putRc_dv : (s.putRc rd ds).dv = s.dv := rfl
@[simp] theorem putRc_rc : (s.putRc rd ds).rc = s.rc.set rd (RecReg.ofDigits s.build ds) := rfl
@[simp] theorem putRc_status : (s.putRc rd ds).status = s.status := rfl
@[simp] theorem putRc_err : (s.putRc rd ds).err = s.err := rfl
@[simp] theorem putRc_flags : (s.putRc rd ds).flags = s.flags := rfl
@[simp] theorem putRc_ctx : (s.putRc rd ds).ctx = s.ctx := rfl
@[simp] theorem putRc_running : (s.putRc rd ds).running = s.running := rfl
@[simp] theorem putRc_build : (s.putRc rd ds).build = s.build := rfl
@[simp] theorem putRc_inbox : (s.putRc rd ds).inbox = s.inbox := rfl
@[simp] theorem putRc_held : (s.putRc rd ds).held = s.held := rfl
@[simp] theorem putRc_reply : (s.putRc rd ds).reply = s.reply := rfl
@[simp] theorem putRc_tape : (s.putRc rd ds).tape = s.tape := rfl
@[simp] theorem putRc_draws : (s.putRc rd ds).draws = s.draws := rfl

end putRcFields

section drawnFields

variable (s : State) (k : Nat)

@[simp] theorem drawn_n : (s.drawn k).n = s.n := rfl
@[simp] theorem drawn_fp : (s.drawn k).fp = s.fp := rfl
@[simp] theorem drawn_fb : (s.drawn k).fb = s.fb := rfl
@[simp] theorem drawn_ep : (s.drawn k).ep = s.ep := rfl
@[simp] theorem drawn_eb : (s.drawn k).eb = s.eb := rfl
@[simp] theorem drawn_dv : (s.drawn k).dv = s.dv := rfl
@[simp] theorem drawn_rc : (s.drawn k).rc = s.rc := rfl
@[simp] theorem drawn_status : (s.drawn k).status = s.status := rfl
@[simp] theorem drawn_err : (s.drawn k).err = s.err := rfl
@[simp] theorem drawn_flags : (s.drawn k).flags = s.flags := rfl
@[simp] theorem drawn_ctx : (s.drawn k).ctx = s.ctx := rfl
@[simp] theorem drawn_running : (s.drawn k).running = s.running := rfl
@[simp] theorem drawn_build : (s.drawn k).build = s.build := rfl
@[simp] theorem drawn_inbox : (s.drawn k).inbox = s.inbox := rfl
@[simp] theorem drawn_held : (s.drawn k).held = s.held := rfl
@[simp] theorem drawn_reply : (s.drawn k).reply = s.reply := rfl
@[simp] theorem drawn_tape : (s.drawn k).tape = s.tape.drop k := rfl
@[simp] theorem drawn_draws : (s.drawn k).draws = s.draws + k := rfl

@[simp] theorem drawn_zero : s.drawn 0 = s := rfl

end drawnFields

section setCmpFields

variable (s : State) (v : CmpResult)

@[simp] theorem setCmp_n : (s.setCmp v).n = s.n := rfl
@[simp] theorem setCmp_fp : (s.setCmp v).fp = s.fp := rfl
@[simp] theorem setCmp_fb : (s.setCmp v).fb = s.fb := rfl
@[simp] theorem setCmp_ep : (s.setCmp v).ep = s.ep := rfl
@[simp] theorem setCmp_eb : (s.setCmp v).eb = s.eb := rfl
@[simp] theorem setCmp_dv : (s.setCmp v).dv = s.dv := rfl
@[simp] theorem setCmp_rc : (s.setCmp v).rc = s.rc := rfl
@[simp] theorem setCmp_status : (s.setCmp v).status = s.status := rfl
@[simp] theorem setCmp_err : (s.setCmp v).err = s.err := rfl
@[simp] theorem setCmp_flags : (s.setCmp v).flags = ⟨v, s.flags.t⟩ := rfl
@[simp] theorem setCmp_ctx : (s.setCmp v).ctx = s.ctx := rfl
@[simp] theorem setCmp_running : (s.setCmp v).running = s.running := rfl
@[simp] theorem setCmp_build : (s.setCmp v).build = s.build := rfl
@[simp] theorem setCmp_inbox : (s.setCmp v).inbox = s.inbox := rfl
@[simp] theorem setCmp_held : (s.setCmp v).held = s.held := rfl
@[simp] theorem setCmp_reply : (s.setCmp v).reply = s.reply := rfl
@[simp] theorem setCmp_tape : (s.setCmp v).tape = s.tape := rfl
@[simp] theorem setCmp_draws : (s.setCmp v).draws = s.draws := rfl

end setCmpFields

section setTFields

variable (s : State) (v : Bool)

@[simp] theorem setT_n : (s.setT v).n = s.n := rfl
@[simp] theorem setT_fp : (s.setT v).fp = s.fp := rfl
@[simp] theorem setT_fb : (s.setT v).fb = s.fb := rfl
@[simp] theorem setT_ep : (s.setT v).ep = s.ep := rfl
@[simp] theorem setT_eb : (s.setT v).eb = s.eb := rfl
@[simp] theorem setT_dv : (s.setT v).dv = s.dv := rfl
@[simp] theorem setT_rc : (s.setT v).rc = s.rc := rfl
@[simp] theorem setT_status : (s.setT v).status = s.status := rfl
@[simp] theorem setT_err : (s.setT v).err = s.err := rfl
@[simp] theorem setT_flags : (s.setT v).flags = ⟨s.flags.cmp, v⟩ := rfl
@[simp] theorem setT_ctx : (s.setT v).ctx = s.ctx := rfl
@[simp] theorem setT_running : (s.setT v).running = s.running := rfl
@[simp] theorem setT_build : (s.setT v).build = s.build := rfl
@[simp] theorem setT_inbox : (s.setT v).inbox = s.inbox := rfl
@[simp] theorem setT_held : (s.setT v).held = s.held := rfl
@[simp] theorem setT_reply : (s.setT v).reply = s.reply := rfl
@[simp] theorem setT_tape : (s.setT v).tape = s.tape := rfl
@[simp] theorem setT_draws : (s.setT v).draws = s.draws := rfl

end setTFields

section takeFaultFields

variable (s : State) (k : Kind) (op : Nat)

@[simp] theorem takeFault_n : (takeFault k op s).n = s.n := rfl
@[simp] theorem takeFault_fp : (takeFault k op s).fp = s.fp := rfl
@[simp] theorem takeFault_fb : (takeFault k op s).fb = s.fb := rfl
@[simp] theorem takeFault_ep : (takeFault k op s).ep = s.ep := rfl
@[simp] theorem takeFault_eb : (takeFault k op s).eb = s.eb := rfl
@[simp] theorem takeFault_dv : (takeFault k op s).dv = s.dv := rfl
@[simp] theorem takeFault_rc : (takeFault k op s).rc = s.rc := rfl
@[simp] theorem takeFault_status : (takeFault k op s).status = ⟨false, false, true, s.status.init⟩ := rfl
@[simp] theorem takeFault_err : (takeFault k op s).err = ⟨some k, op⟩ := rfl
@[simp] theorem takeFault_flags : (takeFault k op s).flags = s.flags := rfl
@[simp] theorem takeFault_ctx : (takeFault k op s).ctx = s.ctx := rfl
@[simp] theorem takeFault_running : (takeFault k op s).running = none := rfl
@[simp] theorem takeFault_build : (takeFault k op s).build = s.build := rfl
@[simp] theorem takeFault_inbox : (takeFault k op s).inbox = s.inbox := rfl
@[simp] theorem takeFault_held : (takeFault k op s).held = s.held := rfl
@[simp] theorem takeFault_reply : (takeFault k op s).reply = s.reply := rfl
@[simp] theorem takeFault_tape : (takeFault k op s).tape = s.tape := rfl
@[simp] theorem takeFault_draws : (takeFault k op s).draws = s.draws := rfl

end takeFaultFields

section hostFaultFields

variable (s : State) (k : Kind)

@[simp] theorem hostFault_n : (hostFault k s).n = s.n := rfl
@[simp] theorem hostFault_fp : (hostFault k s).fp = s.fp := rfl
@[simp] theorem hostFault_fb : (hostFault k s).fb = s.fb := rfl
@[simp] theorem hostFault_ep : (hostFault k s).ep = s.ep := rfl
@[simp] theorem hostFault_eb : (hostFault k s).eb = s.eb := rfl
@[simp] theorem hostFault_dv : (hostFault k s).dv = s.dv := rfl
@[simp] theorem hostFault_rc : (hostFault k s).rc = s.rc := rfl
@[simp] theorem hostFault_status : (hostFault k s).status = ⟨s.status.busy, s.status.done, true, s.status.init⟩ := rfl
@[simp] theorem hostFault_err : (hostFault k s).err = ⟨some k, 0⟩ := rfl
@[simp] theorem hostFault_flags : (hostFault k s).flags = s.flags := rfl
@[simp] theorem hostFault_ctx : (hostFault k s).ctx = s.ctx := rfl
@[simp] theorem hostFault_running : (hostFault k s).running = s.running := rfl
@[simp] theorem hostFault_build : (hostFault k s).build = s.build := rfl
@[simp] theorem hostFault_inbox : (hostFault k s).inbox = s.inbox := rfl
@[simp] theorem hostFault_held : (hostFault k s).held = s.held := rfl
@[simp] theorem hostFault_reply : (hostFault k s).reply = s.reply := rfl
@[simp] theorem hostFault_tape : (hostFault k s).tape = s.tape := rfl
@[simp] theorem hostFault_draws : (hostFault k s).draws = s.draws := rfl

end hostFaultFields

section clearFaultFields

variable (s : State)

@[simp] theorem clearFault_n : (clearFault s).n = s.n := rfl
@[simp] theorem clearFault_fp : (clearFault s).fp = s.fp := rfl
@[simp] theorem clearFault_fb : (clearFault s).fb = s.fb := rfl
@[simp] theorem clearFault_ep : (clearFault s).ep = s.ep := rfl
@[simp] theorem clearFault_eb : (clearFault s).eb = s.eb := rfl
@[simp] theorem clearFault_dv : (clearFault s).dv = s.dv := rfl
@[simp] theorem clearFault_rc : (clearFault s).rc = s.rc := rfl
@[simp] theorem clearFault_status : (clearFault s).status = ⟨s.status.busy, s.status.done, false, s.status.init⟩ := rfl
@[simp] theorem clearFault_err : (clearFault s).err = ⟨none, 0⟩ := rfl
@[simp] theorem clearFault_flags : (clearFault s).flags = s.flags := rfl
@[simp] theorem clearFault_ctx : (clearFault s).ctx = s.ctx := rfl
@[simp] theorem clearFault_running : (clearFault s).running = s.running := rfl
@[simp] theorem clearFault_build : (clearFault s).build = s.build := rfl
@[simp] theorem clearFault_inbox : (clearFault s).inbox = s.inbox := rfl
@[simp] theorem clearFault_held : (clearFault s).held = s.held := rfl
@[simp] theorem clearFault_reply : (clearFault s).reply = s.reply := rfl
@[simp] theorem clearFault_tape : (clearFault s).tape = s.tape := rfl
@[simp] theorem clearFault_draws : (clearFault s).draws = s.draws := rfl

end clearFaultFields

section finishFields

variable (s : State)

@[simp] theorem finish_n : (finish s).n = s.n := rfl
@[simp] theorem finish_fp : (finish s).fp = s.fp := rfl
@[simp] theorem finish_fb : (finish s).fb = s.fb := rfl
@[simp] theorem finish_ep : (finish s).ep = s.ep := rfl
@[simp] theorem finish_eb : (finish s).eb = s.eb := rfl
@[simp] theorem finish_dv : (finish s).dv = s.dv := rfl
@[simp] theorem finish_rc : (finish s).rc = s.rc := rfl
@[simp] theorem finish_status : (finish s).status = ⟨false, true, s.status.errf, s.status.init⟩ := rfl
@[simp] theorem finish_err : (finish s).err = s.err := rfl
@[simp] theorem finish_flags : (finish s).flags = s.flags := rfl
@[simp] theorem finish_ctx : (finish s).ctx = s.ctx := rfl
@[simp] theorem finish_running : (finish s).running = none := rfl
@[simp] theorem finish_build : (finish s).build = s.build := rfl
@[simp] theorem finish_inbox : (finish s).inbox = s.inbox := rfl
@[simp] theorem finish_held : (finish s).held = s.held := rfl
@[simp] theorem finish_reply : (finish s).reply = s.reply := rfl
@[simp] theorem finish_tape : (finish s).tape = s.tape := rfl
@[simp] theorem finish_draws : (finish s).draws = s.draws := rfl

end finishFields

section issueFields

variable (s : State) (c : Word)

@[simp] theorem issue_n : (issue c s).n = s.n := rfl
@[simp] theorem issue_fp : (issue c s).fp = s.fp := rfl
@[simp] theorem issue_fb : (issue c s).fb = s.fb := rfl
@[simp] theorem issue_ep : (issue c s).ep = s.ep := rfl
@[simp] theorem issue_eb : (issue c s).eb = s.eb := rfl
@[simp] theorem issue_dv : (issue c s).dv = s.dv := rfl
@[simp] theorem issue_rc : (issue c s).rc = s.rc := rfl
@[simp] theorem issue_status : (issue c s).status = ⟨true, false, s.status.errf, s.status.init⟩ := rfl
@[simp] theorem issue_err : (issue c s).err = s.err := rfl
@[simp] theorem issue_flags : (issue c s).flags = s.flags := rfl
@[simp] theorem issue_ctx : (issue c s).ctx = s.ctx := rfl
@[simp] theorem issue_running : (issue c s).running = some c := rfl
@[simp] theorem issue_build : (issue c s).build = s.build := rfl
@[simp] theorem issue_inbox : (issue c s).inbox = s.inbox := rfl
@[simp] theorem issue_held : (issue c s).held = s.held := rfl
@[simp] theorem issue_reply : (issue c s).reply = s.reply := rfl
@[simp] theorem issue_tape : (issue c s).tape = s.tape := rfl
@[simp] theorem issue_draws : (issue c s).draws = s.draws := rfl

end issueFields

end Sys2Proof.Machine
end

