-- ==== Sys2Proof/Laws/Ops.lean ====
section
/-! SUPPORT. What each shared operation can do, said once: the shape of a command, digit vectors, register
reads after writes, and the cases of a step. -/

namespace Sys2Proof.Machine

/-! Commands. -/

theorem firstFault_eq_none (cs : List Check) : firstFault cs = none ↔ ∀ c ∈ cs, c.ok = true := by
  induction cs with
  | nil => simp [firstFault]
  | cons c rest ih => cases h : c.ok <;> simp [firstFault, h, ih]

theorem firstFault_eq_some {cs : List Check} {k : Kind} (h : firstFault cs = some k) :
    ∃ c ∈ cs, c.ok = false ∧ c.kind = k := by
  induction cs with
  | nil => simp [firstFault] at h
  | cons c rest ih =>
    cases hc : c.ok with
    | true =>
      rw [firstFault, if_pos hc] at h
      obtain ⟨d, hd, hk⟩ := ih h
      exact ⟨d, List.mem_cons_of_mem _ hd, hk⟩
    | false =>
      rw [firstFault, if_neg (by simp [hc])] at h
      exact ⟨c, List.mem_cons_self, hc, Option.some.inj h⟩

theorem firstFault_append (cs ds : List Check) :
    firstFault (cs ++ ds) = (firstFault cs).or (firstFault ds) := by
  induction cs with
  | nil => simp [firstFault]
  | cons c rest ih => cases h : c.ok <;> simp [firstFault, h, ih]

/-- A command whose tests all pass completes with its writes (30_encoding R99). -/
theorem command_completes {op : Nat} {cs : List Check} {w : State → State} {s : State}
    (h : firstFault cs = none) : command op cs w s = .next (finish (w s)) := by
  simp [command, h]

/-- A command with a failing test takes the fault of the first one (60_exceptions R336, R338). -/
theorem command_faults {op : Nat} {cs : List Check} {w : State → State} {s : State} {k : Kind}
    (h : firstFault cs = some k) : command op cs w s = .next (takeFault k op s) := by
  simp [command, h]

/-- Everything a command can do. -/
theorem command_cases {op : Nat} {cs : List Check} {w : State → State} {s t : State}
    (h : command op cs w s = .next t) :
    (firstFault cs = none ∧ t = finish (w s)) ∨
      ∃ k, firstFault cs = some k ∧ t = takeFault k op s := by
  cases hf : firstFault cs with
  | none => rw [command_completes hf] at h; cases h; exact .inl ⟨rfl, rfl⟩
  | some k => rw [command_faults hf] at h; cases h; exact .inr ⟨k, rfl, rfl⟩

/-! Digit vectors. -/

theorem digits_lt (W n v : Nat) : digits W n v < 2 ^ (W * n) := Nat.mod_lt _ (by positivity)

theorem digits_of_lt {W n v : Nat} (h : v < 2 ^ (W * n)) : digits W n v = v := Nat.mod_eq_of_lt h

theorem digit_lt (W v i : Nat) : digit W v i < 2 ^ W := Nat.mod_lt _ (by positivity)

/-- The digit that was written reads back (20_memory R73). -/
theorem digit_setDigit (W v i d : Nat) : digit W (setDigit W v i d) i = d % 2 ^ W := by
  have hA : 0 < 2 ^ (W * i) := by positivity
  have h : setDigit W v i d =
      v % 2 ^ (W * i) + 2 ^ (W * i) * (d % 2 ^ W + 2 ^ W * (v / 2 ^ (W * (i + 1)))) := by
    rw [setDigit, Nat.mul_add W i 1, Nat.mul_one, Nat.pow_add]; ring
  rw [digit, h, Nat.add_mul_div_left _ _ hA, Nat.div_eq_of_lt (Nat.mod_lt _ hA), Nat.zero_add,
    Nat.add_mul_mod_self_left, Nat.mod_mod]

/-- Writing a digit inside the vector keeps its length. -/
theorem setDigit_lt {W n v i : Nat} (d : Nat) (hi : i < n) (hv : v < 2 ^ (W * n)) :
    setDigit W v i d < 2 ^ (W * n) := by
  have hA : 0 < 2 ^ (W * i) := by positivity
  have hB : 0 < 2 ^ (W * (i + 1)) := by positivity
  have hlow : v % 2 ^ (W * i) + 2 ^ (W * i) * (d % 2 ^ W) < 2 ^ (W * (i + 1)) := by
    have h1 : v % 2 ^ (W * i) < 2 ^ (W * i) := Nat.mod_lt _ hA
    have h2 : d % 2 ^ W + 1 ≤ 2 ^ W := Nat.mod_lt _ (by positivity)
    calc v % 2 ^ (W * i) + 2 ^ (W * i) * (d % 2 ^ W)
        < 2 ^ (W * i) + 2 ^ (W * i) * (d % 2 ^ W) := by omega
      _ = 2 ^ (W * i) * (d % 2 ^ W + 1) := by ring
      _ ≤ 2 ^ (W * i) * 2 ^ W := Nat.mul_le_mul_left _ h2
      _ = 2 ^ (W * (i + 1)) := by rw [← Nat.pow_add, Nat.mul_add, Nat.mul_one]
  have hsplit : 2 ^ (W * n) = 2 ^ (W * (i + 1)) * 2 ^ (W * (n - (i + 1))) := by
    rw [← Nat.pow_add, ← Nat.mul_add]; congr 2; omega
  have hq : v / 2 ^ (W * (i + 1)) + 1 ≤ 2 ^ (W * (n - (i + 1))) := by
    rw [Nat.succ_le_iff, Nat.div_lt_iff_lt_mul hB]; rw [hsplit, Nat.mul_comm] at hv; exact hv
  calc setDigit W v i d
      < 2 ^ (W * (i + 1)) + 2 ^ (W * (i + 1)) * (v / 2 ^ (W * (i + 1))) := by
        rw [setDigit]; omega
    _ = 2 ^ (W * (i + 1)) * (v / 2 ^ (W * (i + 1)) + 1) := by ring
    _ ≤ 2 ^ (W * (i + 1)) * 2 ^ (W * (n - (i + 1))) := Nat.mul_le_mul_left _ hq
    _ = 2 ^ (W * n) := hsplit.symm

/-! Register files: what a write leaves at its own index and at another one. -/

section files

variable (s : State) (rd r : Reg)

theorem getElem_set_same {α : Type} (v : Vector α 16) (x : α) : (v.set rd x)[rd] = x := by simp

theorem getElem_set_other {α : Type} (v : Vector α 16) (x : α) (h : r ≠ rd) :
    (v.set rd x)[r] = v[r] := by
  have : rd.val ≠ r.val := fun e => h (Fin.ext e.symm)
  simp [this]

theorem putN_same (x : Int) :
    (s.putN rd x).n[rd] = ⟨decide (x < 0), digits s.build.W s.build.bnDigs x.natAbs⟩ := by simp

theorem putN_other (x : Int) (h : r ≠ rd) : (s.putN rd x).n[r] = s.n[r] := by
  rw [putN_n]; exact getElem_set_other rd r _ _ h

theorem putFp_same (v : Nat) : (s.putFp rd v).fp[rd] = digits s.build.W s.build.fpDigs v := by simp

theorem putFp_other (v : Nat) (h : r ≠ rd) : (s.putFp rd v).fp[r] = s.fp[r] := by
  rw [putFp_fp]; exact getElem_set_other rd r _ _ h

theorem putFb_same (v : Nat) : (s.putFb rd v).fb[rd] = digits s.build.W s.build.fbDigs v := by simp

theorem putFb_other (v : Nat) (h : r ≠ rd) : (s.putFb rd v).fb[r] = s.fb[r] := by
  rw [putFb_fb]; exact getElem_set_other rd r _ _ h

theorem putDv_same (v : Nat) : (s.putDv rd v).dv[rd] = digits s.build.W s.build.dvDigs v := by simp

theorem putDv_other (v : Nat) (h : r ≠ rd) : (s.putDv rd v).dv[r] = s.dv[r] := by
  rw [putDv_dv]; exact getElem_set_other rd r _ _ h

theorem putEp_same (e : PointReg) : (s.putEp rd e).ep[rd] = e.fit s.build.W s.build.fpDigs := by simp

theorem putEp_other (e : PointReg) (h : r ≠ rd) : (s.putEp rd e).ep[r] = s.ep[r] := by
  rw [putEp_ep]; exact getElem_set_other rd r _ _ h

theorem putEb_same (e : PointReg) : (s.putEb rd e).eb[rd] = e.fit s.build.W s.build.fbDigs := by simp

theorem putEb_other (e : PointReg) (h : r ≠ rd) : (s.putEb rd e).eb[r] = s.eb[r] := by
  rw [putEb_eb]; exact getElem_set_other rd r _ _ h

theorem putRc_same (ds : List Int) : (s.putRc rd ds).rc[rd] = RecReg.ofDigits s.build ds := by simp

theorem putRc_other (ds : List Int) (h : r ≠ rd) : (s.putRc rd ds).rc[r] = s.rc[r] := by
  rw [putRc_rc]; exact getElem_set_other rd r _ _ h

end files

/-- A recoding buffer always has `RC_LEN` entries (10_state R38, 42_rec R142). -/
theorem ofDigits_length (b : Build) (ds : List Int) : (RecReg.ofDigits b ds).d.length = b.rcLen := by
  simp [RecReg.ofDigits]; omega

/-! Inverses and point results: a value where there is one, else a free value (70_reset R368). -/

theorem invMod_spec {p a x : Nat} (h : invMod p a = some x) : a * x % p = 1 % p := by
  unfold invMod at h
  dsimp only at h
  split at h
  · rename_i hx; cases h; exact hx
  · cases h

theorem invBy_spec {v : FbInv} {chain : List (Nat × Nat)} {m f a x : Nat}
    (h : invBy v chain m f a = some x) : fbMulP m f a x = 1 := by
  unfold invBy at h
  simpa using (Option.filter_eq_some_iff.mp h).2

theorem fbInvP_spec {m f a x : Nat} (h : fbInvP m f a = some x) : fbMulP m f a x = 1 := invBy_spec h

theorem fbRoot_spec {m f a r : Nat} (h : fbRoot m f a = some r) : fbSqrP m f r = a := by
  have := (Option.filter_eq_some_iff.mp h)
  simpa using this.2

/-- What `given` gives. -/
theorem given_eq_some {α : Type} {ok : Bool} {v : Option α} {x : α} :
    given ok v = some x ↔ ok = true ∧ v = some x := by cases ok <;> simp [given]

theorem given_true {α : Type} (v : Option α) : given true v = v := rfl

/-- Everything `putFpOr` can do (93 U10). -/
theorem putFpOr_cases (s : State) (rd : Reg) (v : Option Nat) :
    (∃ x, v = some x ∧ fpTrue s = true ∧ s.putFpOr rd v = s.putFp rd x) ∨
      s.putFpOr rd v = (s.putFp rd (s.draw 0 % s.ctx.fpP)).drawn 1 := by
  unfold State.putFpOr
  split
  · rename_i x h; exact .inl ⟨x, (given_eq_some.mp h).2, (given_eq_some.mp h).1, rfl⟩
  · exact .inr rfl

/-- Everything `putFbOr` can do (93 U10). -/
theorem putFbOr_cases (s : State) (rd : Reg) (v : Option Nat) :
    (∃ x, v = some x ∧ fbTrue s = true ∧ s.putFbOr rd v = s.putFb rd x) ∨
      s.putFbOr rd v = (s.putFb rd (s.draw 0 % 2 ^ s.build.m)).drawn 1 := by
  unfold State.putFbOr
  split
  · rename_i x h; exact .inl ⟨x, (given_eq_some.mp h).2, (given_eq_some.mp h).1, rfl⟩
  · exact .inr rfl

/-- `putFpOr` writes the value where the rules determine it. -/
theorem putFpOr_some {s : State} (h : fpTrue s = true) (rd : Reg) (v : Nat) :
    s.putFpOr rd (some v) = s.putFp rd v := by simp [State.putFpOr, given, h]

/-- `putFbOr` writes the value where the rules determine it. -/
theorem putFbOr_some {s : State} (h : fbTrue s = true) (rd : Reg) (v : Nat) :
    s.putFbOr rd (some v) = s.putFb rd v := by simp [State.putFbOr, given, h]

/-- Everything the result of an `EP` command can be (45_ep R241, 93 U8, U10). -/
theorem epResult_cases (s : State) (es : List PointReg) (rd : Reg) (e : Option PointReg) (k : Nat) :
    (∃ x, e = some x ∧ es.all (epOn s) = true ∧ epTrue s = true ∧
        s.epResult es rd e k = (s.putEp rd x).drawn k) ∨
      s.epResult es rd e k = s.putFreeEp rd := by
  unfold State.epResult
  split
  · rename_i x h
    obtain ⟨hok, rfl⟩ := given_eq_some.mp h
    rw [Bool.and_eq_true] at hok
    exact .inl ⟨x, rfl, hok.1, hok.2, rfl⟩
  · exact .inr rfl

/-- Everything the result of an `EB` command can be (46_eb R281, 93 U8 to U10). -/
theorem ebResult_cases (s : State) (es : List PointReg) (rd : Reg) (e : Option PointReg) (k : Nat) :
    (∃ x, e = some x ∧ es.all (ebOn s) = true ∧ ebTrue s = true ∧
        s.ebResult es rd e k = (s.putEb rd x).drawn k) ∨
      s.ebResult es rd e k = s.putFreeEb rd := by
  unfold State.ebResult
  split
  · rename_i x h
    obtain ⟨hok, rfl⟩ := given_eq_some.mp h
    rw [Bool.and_eq_true] at hok
    exact .inl ⟨x, rfl, hok.1, hok.2, rfl⟩
  · exact .inr rfl

/-! The port and the step. -/

/-- Everything a transaction presented while a command runs can do (20_memory R80, 70_reset R360). -/
theorem presentEarly_cases (t : Txn) (s : State) :
    (t = .reset ∧ presentEarly t s = platformReset s) ∨
    (t = .read statusAddr ∧ presentEarly t s = { s with reply := some s.status.word }) ∨
    (t ≠ .reset ∧ t ≠ .read statusAddr ∧ presentEarly t s = { s with held := s.held ++ [t] }) := by
  cases t with
  | reset => exact .inl ⟨rfl, rfl⟩
  | read a =>
    by_cases h : a = statusAddr
    · subst h; exact .inr (.inl ⟨rfl, by simp [presentEarly]⟩)
    · exact .inr (.inr ⟨by simp, by simpa using h, by simp [presentEarly, h]⟩)
  | write a v => exact .inr (.inr ⟨by simp, by simp, rfl⟩)

/-- Everything `advance` can do (20_memory R80, 70_reset R360, 30_encoding R99). -/
theorem advance_cases {c : Word} {s t : State} (h : advance c s = .next t) :
    (∃ x rest, s.inbox = .present x :: rest ∧ t = presentEarly x { s with inbox := rest }) ∨
    ((∀ a ∈ s.inbox.head?, a = .pause) ∧ complete c { s with inbox := s.inbox.tail } = .next t) := by
  unfold advance at h
  split at h
  · rename_i x rest hin; cases h; exact .inl ⟨x, rest, hin, rfl⟩
  · rename_i rest hin; exact .inr ⟨by simp [hin], by rw [hin]; exact h⟩
  · rename_i hin; exact .inr ⟨by simp [hin], by cases s; simp_all⟩

/-- Everything `complete` can do. -/
theorem complete_cases {c : Word} {s t : State} (h : complete c s = .next t) :
    (∃ i, decode c = .ok i ∧ exec i s = .next t) ∨
      (∃ u, decode c = .error u ∧ t = takeFault .invalidInput (opOf c) s) := by
  unfold complete at h
  split at h
  · rename_i i hi; exact .inl ⟨i, hi, h⟩
  · rename_i u hu; cases h; exact .inr ⟨u, hu, rfl⟩

/-- Everything a step can do. -/
theorem step_cases {s t : State} (h : step s = .next t) :
    (∃ c, s.running = some c ∧ advance c s = .next t) ∨
    (∃ x rest, s.running = none ∧ s.held = x :: rest ∧
      transact x { s with held := rest } = .next t) ∨
    (∃ x rest, s.running = none ∧ s.held = [] ∧ s.inbox = .present x :: rest ∧
      transact x { s with inbox := rest } = .next t) ∨
    (s.running = none ∧ s.held = [] ∧ (∀ a ∈ s.inbox.head?, a = .pause) ∧
      t = { s with inbox := s.inbox.tail }) := by
  unfold step at h
  split at h
  · rename_i c hc; exact .inl ⟨c, hc, h⟩
  · rename_i x rest hr hh; exact .inr (.inl ⟨x, rest, hr, hh, h⟩)
  · rename_i x rest hr hh hin; exact .inr (.inr (.inl ⟨x, rest, hr, hh, hin, h⟩))
  · rename_i rest hr hh hin
    cases h; exact .inr (.inr (.inr ⟨hr, hh, by simp [hin], by rw [hin]; rfl⟩))
  · rename_i hr hh hin
    cases h; exact .inr (.inr (.inr ⟨hr, hh, by simp [hin], by cases s; simp_all⟩))

/-- Everything a write to a mapped location can do (20_memory R73, R75, R78). -/
theorem writeMapped_cases {l : Loc} {v : Nat} {s t : State} (h : writeMapped l v s = .next t) :
    v < 2 ^ l.width s.build ∧
    ((l.access = .writeOnly ∧ writeCmd (BitVec.ofNat 32 v) s = .next t) ∨
     (l.access = .readOnly ∧ t = hostFault .invalidInput s) ∨
     (l.access = .untilInit ∧ s.status.init = true ∧ t = hostFault .noValidConfig s) ∨
     ((l.access = .readWrite ∨ l.access = .untilInit ∧ s.status.init = false) ∧
       t = writeLoc s v l)) := by
  unfold writeMapped at h
  split at h
  · rename_i hv
    refine ⟨hv, ?_⟩
    split at h <;> rename_i ha
    · exact .inl ⟨ha, h⟩
    · cases h; exact .inr (.inl ⟨ha, rfl⟩)
    · cases h; exact .inr (.inr (.inr ⟨.inl ha, rfl⟩))
    · split at h <;> rename_i hi
      · cases h; exact .inr (.inr (.inl ⟨ha, hi, rfl⟩))
      · cases h; exact .inr (.inr (.inr ⟨.inr ⟨ha, by simpa using hi⟩, rfl⟩))
  · cases h

end Sys2Proof.Machine
end

