-- ==== Sys2Proof/Laws/PerInstr.lean ====
section
/-! SUPPORT. The per-instruction family `RowFields`: the encoder puts into every word of an instruction the
`op` and the `var` that 30_encoding R95 gives its row. -/

namespace Sys2Proof.Laws

/-- The columns `op` and `var` of 30_encoding R95; format S has no `var`. -/
def rowCode : Instr → Nat × Option Nat
  | .nop => (0x00, some 0)
  | .ctxInit => (0x01, some 0)
  | .clrerr => (0x02, some 0)
  | .dvZero _ _ => (0x10, some 0)
  | .dvCopy _ _ _ => (0x11, some 0)
  | .dvCmp _ _ _ => (0x12, some 0)
  | .bnAdd _ _ _ => (0x20, some 0)
  | .bnSub _ _ _ => (0x21, some 0)
  | .bnMul _ _ _ => (0x22, some 0)
  | .bnSqr _ _ => (0x23, some 0)
  | .bnDiv _ _ _ _ => (0x24, some 0)
  | .bnMod _ _ _ => (0x25, some 0)
  | .bnGcd _ _ _ => (0x26, some 0)
  | .bnLsh _ _ _ => (0x27, none)
  | .bnRsh _ _ _ => (0x28, none)
  | .recNaf _ _ _ => (0x30, some 0)
  | .recJsf _ _ _ => (0x31, some 0)
  | .recTnaf _ _ _ => (0x32, some 0)
  | .recWin _ _ _ => (0x33, some 0)
  | .recReg _ _ _ => (0x34, some 0)
  | .fpAdd _ _ _ => (0x40, some 0)
  | .fpSub _ _ _ => (0x41, some 0)
  | .fpNeg _ _ => (0x42, some 0)
  | .fpDbl _ _ => (0x43, some 0)
  | .fpHlv _ _ => (0x44, some 0)
  | .fpMul _ _ _ => (0x45, some 0)
  | .fpSqr _ _ => (0x46, some 0)
  | .fpInv _ _ => (0x47, some 0)
  | .fpExp _ _ _ => (0x48, some 0)
  | .fpExpMonty _ _ _ => (0x48, some 1)
  | .fpSrt _ _ => (0x49, some 0)
  | .fpCmp _ _ => (0x4A, some 0)
  | .fpConv _ _ => (0x4B, some 0)
  | .fpBack _ _ => (0x4C, some 0)
  | .fpMuln _ _ _ => (0x4D, some 0)
  | .fpRdc _ _ => (0x4E, some 0)
  | .fpRdcn _ _ => (0x4E, some 1)
  | .fpRdcs _ _ => (0x4E, some 2)
  | .fbAdd _ _ _ => (0x50, some 0)
  | .fbMul _ _ _ => (0x51, some 0)
  | .fbSqr _ _ => (0x52, some 0)
  | .fbMuln _ _ _ => (0x53, some 0)
  | .fbRdc _ _ => (0x54, some 0)
  | .fbSrt _ _ => (0x55, some 0)
  | .fbTrc _ => (0x56, some 0)
  | .fbSlv _ _ => (0x57, some 0)
  | .fbInv _ _ => (0x58, some 0)
  | .fbInvBasic _ _ => (0x58, some 1)
  | .fbInvBinar _ _ => (0x58, some 2)
  | .fbInvAlmos _ _ => (0x58, some 3)
  | .fbInvExgcd _ _ => (0x58, some 4)
  | .fbInvItoht _ _ => (0x58, some 5)
  | .fbInvLower _ _ => (0x58, some 6)
  | .fbInvSim _ _ _ => (0x59, some 0)
  | .fbCmp _ _ => (0x5A, some 0)
  | .epNeg _ _ => (0x60, some 0)
  | .epDbl _ _ => (0x61, some 0)
  | .epAdd _ _ _ => (0x62, some 0)
  | .epNorm _ _ => (0x63, some 0)
  | .epMul _ _ _ => (0x70, some 0)
  | .epMulBasic _ _ _ => (0x70, some 1)
  | .epMulLwnaf _ _ _ => (0x70, some 2)
  | .epMulRwnaf _ _ _ => (0x70, some 3)
  | .epSim _ _ _ _ _ => (0x71, some 0)
  | .epSimBasic _ _ _ _ _ => (0x71, some 1)
  | .epSimTrick _ _ _ _ _ => (0x71, some 2)
  | .epSimInter _ _ _ _ _ => (0x71, some 3)
  | .epSimJoint _ _ _ _ _ => (0x71, some 4)
  | .ebNeg _ _ => (0x80, some 0)
  | .ebDbl _ _ => (0x81, some 0)
  | .ebAdd _ _ _ => (0x82, some 0)
  | .ebNorm _ _ => (0x83, some 0)
  | .ebFrb _ _ => (0x84, some 0)
  | .ebHlv _ _ => (0x85, some 0)
  | .ebMul _ _ _ => (0x90, some 0)
  | .ebMulBasic _ _ _ => (0x90, some 1)
  | .ebMulLwnaf _ _ _ => (0x90, some 2)
  | .ebMulRwnaf _ _ _ => (0x90, some 3)
  | .ebMulLodah _ _ _ => (0x90, some 4)
  | .ebMulHalve _ _ _ => (0x90, some 5)
  | .ebSim _ _ _ _ _ => (0x91, some 0)
  | .ebSimBasic _ _ _ _ _ => (0x91, some 1)
  | .ebSimTrick _ _ _ _ _ => (0x91, some 2)
  | .ebSimInter _ _ _ _ _ => (0x91, some 3)
  | .ebSimJoint _ _ _ _ _ => (0x91, some 4)

/-- The word of an instruction carries its row's `op` in bits 31:24 and, in format R, its `var` in bits 7:4
(30_encoding R91, R93, R95). -/
def RowFields.Statement (i : Instr) : Prop :=
  opOf (encode i) = (rowCode i).1 ∧ ∀ v ∈ (rowCode i).2, bitsAt (encode i) 4 4 = v

/-- The fields of a format R word (30_encoding R91). -/
theorem rowR {op : Nat} {rd ra rb rc : Reg} {var lo : Nib} (h : op < 256) :
    opOf (wordR op rd ra rb rc var lo) = op ∧
      ∀ v ∈ some var.val, bitsAt (wordR op rd ra rb rc var lo) 4 4 = v := by
  have h1 := rd.isLt
  have h2 := ra.isLt
  have h3 := rb.isLt
  have h4 := rc.isLt
  have h5 := var.isLt
  have h6 := lo.isLt
  constructor
  · simp only [opOf, bitsAt, wordR, BitVec.toNat_ofNat]; omega
  · rintro v ⟨⟩; simp only [bitsAt, wordR, BitVec.toNat_ofNat]; omega

/-- The fields of a format S word (30_encoding R93). -/
theorem rowS {op : Nat} {rd ra : Reg} {imm16 : BitVec 16} (h : op < 256) :
    opOf (wordS op rd ra imm16) = op ∧ ∀ v ∈ (none : Option Nat), bitsAt (wordS op rd ra imm16) 4 4 = v := by
  have h1 := rd.isLt
  have h2 := ra.isLt
  have h3 := imm16.isLt
  constructor
  · simp only [opOf, bitsAt, wordS, BitVec.toNat_ofNat]; omega
  · rintro v ⟨⟩

theorem RowFields.nop : RowFields.Statement (.nop) :=
  rowR (by decide)

theorem RowFields.ctxInit : RowFields.Statement (.ctxInit) :=
  rowR (by decide)

theorem RowFields.clrerr : RowFields.Statement (.clrerr) :=
  rowR (by decide)

theorem RowFields.dvZero (sp : Nib) (rd : Reg) : RowFields.Statement (.dvZero sp rd) :=
  rowR (by decide)

theorem RowFields.dvCopy (sp : Nib) (rd : Reg) (ra : Reg) : RowFields.Statement (.dvCopy sp rd ra) :=
  rowR (by decide)

theorem RowFields.dvCmp (sp : Nib) (ra : Reg) (rb : Reg) : RowFields.Statement (.dvCmp sp ra rb) :=
  rowR (by decide)

theorem RowFields.bnAdd (rd : Reg) (ra : Reg) (rb : Reg) : RowFields.Statement (.bnAdd rd ra rb) :=
  rowR (by decide)

theorem RowFields.bnSub (rd : Reg) (ra : Reg) (rb : Reg) : RowFields.Statement (.bnSub rd ra rb) :=
  rowR (by decide)

theorem RowFields.bnMul (rd : Reg) (ra : Reg) (rb : Reg) : RowFields.Statement (.bnMul rd ra rb) :=
  rowR (by decide)

theorem RowFields.bnSqr (rd : Reg) (ra : Reg) : RowFields.Statement (.bnSqr rd ra) :=
  rowR (by decide)

theorem RowFields.bnDiv (rd : Reg) (rc : Reg) (ra : Reg) (rb : Reg) : RowFields.Statement (.bnDiv rd rc ra rb) :=
  rowR (by decide)

theorem RowFields.bnMod (rd : Reg) (ra : Reg) (rb : Reg) : RowFields.Statement (.bnMod rd ra rb) :=
  rowR (by decide)

theorem RowFields.bnGcd (rd : Reg) (ra : Reg) (rb : Reg) : RowFields.Statement (.bnGcd rd ra rb) :=
  rowR (by decide)

theorem RowFields.bnLsh (rd : Reg) (ra : Reg) (imm16 : BitVec 16) : RowFields.Statement (.bnLsh rd ra imm16) :=
  rowS (by decide)

theorem RowFields.bnRsh (rd : Reg) (ra : Reg) (imm16 : BitVec 16) : RowFields.Statement (.bnRsh rd ra imm16) :=
  rowS (by decide)

theorem RowFields.recNaf (rd : Reg) (ra : Reg) (w : Nib) : RowFields.Statement (.recNaf rd ra w) :=
  rowR (by decide)

theorem RowFields.recJsf (rd : Reg) (ra : Reg) (rb : Reg) : RowFields.Statement (.recJsf rd ra rb) :=
  rowR (by decide)

theorem RowFields.recTnaf (rd : Reg) (ra : Reg) (w : Nib) : RowFields.Statement (.recTnaf rd ra w) :=
  rowR (by decide)

theorem RowFields.recWin (rd : Reg) (ra : Reg) (w : Nib) : RowFields.Statement (.recWin rd ra w) :=
  rowR (by decide)

theorem RowFields.recReg (rd : Reg) (ra : Reg) (w : Nib) : RowFields.Statement (.recReg rd ra w) :=
  rowR (by decide)

theorem RowFields.fpAdd (rd : Reg) (ra : Reg) (rb : Reg) : RowFields.Statement (.fpAdd rd ra rb) :=
  rowR (by decide)

theorem RowFields.fpSub (rd : Reg) (ra : Reg) (rb : Reg) : RowFields.Statement (.fpSub rd ra rb) :=
  rowR (by decide)

theorem RowFields.fpNeg (rd : Reg) (ra : Reg) : RowFields.Statement (.fpNeg rd ra) :=
  rowR (by decide)

theorem RowFields.fpDbl (rd : Reg) (ra : Reg) : RowFields.Statement (.fpDbl rd ra) :=
  rowR (by decide)

theorem RowFields.fpHlv (rd : Reg) (ra : Reg) : RowFields.Statement (.fpHlv rd ra) :=
  rowR (by decide)

theorem RowFields.fpMul (rd : Reg) (ra : Reg) (rb : Reg) : RowFields.Statement (.fpMul rd ra rb) :=
  rowR (by decide)

theorem RowFields.fpSqr (rd : Reg) (ra : Reg) : RowFields.Statement (.fpSqr rd ra) :=
  rowR (by decide)

theorem RowFields.fpInv (rd : Reg) (ra : Reg) : RowFields.Statement (.fpInv rd ra) :=
  rowR (by decide)

theorem RowFields.fpExp (rd : Reg) (ra : Reg) (rb : Reg) : RowFields.Statement (.fpExp rd ra rb) :=
  rowR (by decide)

theorem RowFields.fpExpMonty (rd : Reg) (ra : Reg) (rb : Reg) : RowFields.Statement (.fpExpMonty rd ra rb) :=
  rowR (by decide)

theorem RowFields.fpSrt (rd : Reg) (ra : Reg) : RowFields.Statement (.fpSrt rd ra) :=
  rowR (by decide)

theorem RowFields.fpCmp (ra : Reg) (rb : Reg) : RowFields.Statement (.fpCmp ra rb) :=
  rowR (by decide)

theorem RowFields.fpConv (rd : Reg) (ra : Reg) : RowFields.Statement (.fpConv rd ra) :=
  rowR (by decide)

theorem RowFields.fpBack (rd : Reg) (ra : Reg) : RowFields.Statement (.fpBack rd ra) :=
  rowR (by decide)

theorem RowFields.fpMuln (rd : Reg) (ra : Reg) (rb : Reg) : RowFields.Statement (.fpMuln rd ra rb) :=
  rowR (by decide)

theorem RowFields.fpRdc (rd : Reg) (ra : Reg) : RowFields.Statement (.fpRdc rd ra) :=
  rowR (by decide)

theorem RowFields.fpRdcn (rd : Reg) (ra : Reg) : RowFields.Statement (.fpRdcn rd ra) :=
  rowR (by decide)

theorem RowFields.fpRdcs (rd : Reg) (ra : Reg) : RowFields.Statement (.fpRdcs rd ra) :=
  rowR (by decide)

theorem RowFields.fbAdd (rd : Reg) (ra : Reg) (rb : Reg) : RowFields.Statement (.fbAdd rd ra rb) :=
  rowR (by decide)

theorem RowFields.fbMul (rd : Reg) (ra : Reg) (rb : Reg) : RowFields.Statement (.fbMul rd ra rb) :=
  rowR (by decide)

theorem RowFields.fbSqr (rd : Reg) (ra : Reg) : RowFields.Statement (.fbSqr rd ra) :=
  rowR (by decide)

theorem RowFields.fbMuln (rd : Reg) (ra : Reg) (rb : Reg) : RowFields.Statement (.fbMuln rd ra rb) :=
  rowR (by decide)

theorem RowFields.fbRdc (rd : Reg) (ra : Reg) : RowFields.Statement (.fbRdc rd ra) :=
  rowR (by decide)

theorem RowFields.fbSrt (rd : Reg) (ra : Reg) : RowFields.Statement (.fbSrt rd ra) :=
  rowR (by decide)

theorem RowFields.fbTrc (ra : Reg) : RowFields.Statement (.fbTrc ra) :=
  rowR (by decide)

theorem RowFields.fbSlv (rd : Reg) (ra : Reg) : RowFields.Statement (.fbSlv rd ra) :=
  rowR (by decide)

theorem RowFields.fbInv (rd : Reg) (ra : Reg) : RowFields.Statement (.fbInv rd ra) :=
  rowR (by decide)

theorem RowFields.fbInvBasic (rd : Reg) (ra : Reg) : RowFields.Statement (.fbInvBasic rd ra) :=
  rowR (by decide)

theorem RowFields.fbInvBinar (rd : Reg) (ra : Reg) : RowFields.Statement (.fbInvBinar rd ra) :=
  rowR (by decide)

theorem RowFields.fbInvAlmos (rd : Reg) (ra : Reg) : RowFields.Statement (.fbInvAlmos rd ra) :=
  rowR (by decide)

theorem RowFields.fbInvExgcd (rd : Reg) (ra : Reg) : RowFields.Statement (.fbInvExgcd rd ra) :=
  rowR (by decide)

theorem RowFields.fbInvItoht (rd : Reg) (ra : Reg) : RowFields.Statement (.fbInvItoht rd ra) :=
  rowR (by decide)

theorem RowFields.fbInvLower (rd : Reg) (ra : Reg) : RowFields.Statement (.fbInvLower rd ra) :=
  rowR (by decide)

theorem RowFields.fbInvSim (rd : Reg) (ra : Reg) (cnt : Nib) : RowFields.Statement (.fbInvSim rd ra cnt) :=
  rowR (by decide)

theorem RowFields.fbCmp (ra : Reg) (rb : Reg) : RowFields.Statement (.fbCmp ra rb) :=
  rowR (by decide)

theorem RowFields.epNeg (rd : Reg) (ra : Reg) : RowFields.Statement (.epNeg rd ra) :=
  rowR (by decide)

theorem RowFields.epDbl (rd : Reg) (ra : Reg) : RowFields.Statement (.epDbl rd ra) :=
  rowR (by decide)

theorem RowFields.epAdd (rd : Reg) (ra : Reg) (rb : Reg) : RowFields.Statement (.epAdd rd ra rb) :=
  rowR (by decide)

theorem RowFields.epNorm (rd : Reg) (ra : Reg) : RowFields.Statement (.epNorm rd ra) :=
  rowR (by decide)

theorem RowFields.epMul (rd : Reg) (ra : Reg) (rb : Reg) : RowFields.Statement (.epMul rd ra rb) :=
  rowR (by decide)

theorem RowFields.epMulBasic (rd : Reg) (ra : Reg) (rb : Reg) : RowFields.Statement (.epMulBasic rd ra rb) :=
  rowR (by decide)

theorem RowFields.epMulLwnaf (rd : Reg) (ra : Reg) (rb : Reg) : RowFields.Statement (.epMulLwnaf rd ra rb) :=
  rowR (by decide)

theorem RowFields.epMulRwnaf (rd : Reg) (ra : Reg) (rb : Reg) : RowFields.Statement (.epMulRwnaf rd ra rb) :=
  rowR (by decide)

theorem RowFields.epSim (rd : Reg) (ra : Reg) (rb : Reg) (rc : Reg) (re : Reg) : RowFields.Statement (.epSim rd ra rb rc re) :=
  rowR (by decide)

theorem RowFields.epSimBasic (rd : Reg) (ra : Reg) (rb : Reg) (rc : Reg) (re : Reg) : RowFields.Statement (.epSimBasic rd ra rb rc re) :=
  rowR (by decide)

theorem RowFields.epSimTrick (rd : Reg) (ra : Reg) (rb : Reg) (rc : Reg) (re : Reg) : RowFields.Statement (.epSimTrick rd ra rb rc re) :=
  rowR (by decide)

theorem RowFields.epSimInter (rd : Reg) (ra : Reg) (rb : Reg) (rc : Reg) (re : Reg) : RowFields.Statement (.epSimInter rd ra rb rc re) :=
  rowR (by decide)

theorem RowFields.epSimJoint (rd : Reg) (ra : Reg) (rb : Reg) (rc : Reg) (re : Reg) : RowFields.Statement (.epSimJoint rd ra rb rc re) :=
  rowR (by decide)

theorem RowFields.ebNeg (rd : Reg) (ra : Reg) : RowFields.Statement (.ebNeg rd ra) :=
  rowR (by decide)

theorem RowFields.ebDbl (rd : Reg) (ra : Reg) : RowFields.Statement (.ebDbl rd ra) :=
  rowR (by decide)

theorem RowFields.ebAdd (rd : Reg) (ra : Reg) (rb : Reg) : RowFields.Statement (.ebAdd rd ra rb) :=
  rowR (by decide)

theorem RowFields.ebNorm (rd : Reg) (ra : Reg) : RowFields.Statement (.ebNorm rd ra) :=
  rowR (by decide)

theorem RowFields.ebFrb (rd : Reg) (ra : Reg) : RowFields.Statement (.ebFrb rd ra) :=
  rowR (by decide)

theorem RowFields.ebHlv (rd : Reg) (ra : Reg) : RowFields.Statement (.ebHlv rd ra) :=
  rowR (by decide)

theorem RowFields.ebMul (rd : Reg) (ra : Reg) (rb : Reg) : RowFields.Statement (.ebMul rd ra rb) :=
  rowR (by decide)

theorem RowFields.ebMulBasic (rd : Reg) (ra : Reg) (rb : Reg) : RowFields.Statement (.ebMulBasic rd ra rb) :=
  rowR (by decide)

theorem RowFields.ebMulLwnaf (rd : Reg) (ra : Reg) (rb : Reg) : RowFields.Statement (.ebMulLwnaf rd ra rb) :=
  rowR (by decide)

theorem RowFields.ebMulRwnaf (rd : Reg) (ra : Reg) (rb : Reg) : RowFields.Statement (.ebMulRwnaf rd ra rb) :=
  rowR (by decide)

theorem RowFields.ebMulLodah (rd : Reg) (ra : Reg) (rb : Reg) : RowFields.Statement (.ebMulLodah rd ra rb) :=
  rowR (by decide)

theorem RowFields.ebMulHalve (rd : Reg) (ra : Reg) (rb : Reg) : RowFields.Statement (.ebMulHalve rd ra rb) :=
  rowR (by decide)

theorem RowFields.ebSim (rd : Reg) (ra : Reg) (rb : Reg) (rc : Reg) (re : Reg) : RowFields.Statement (.ebSim rd ra rb rc re) :=
  rowR (by decide)

theorem RowFields.ebSimBasic (rd : Reg) (ra : Reg) (rb : Reg) (rc : Reg) (re : Reg) : RowFields.Statement (.ebSimBasic rd ra rb rc re) :=
  rowR (by decide)

theorem RowFields.ebSimTrick (rd : Reg) (ra : Reg) (rb : Reg) (rc : Reg) (re : Reg) : RowFields.Statement (.ebSimTrick rd ra rb rc re) :=
  rowR (by decide)

theorem RowFields.ebSimInter (rd : Reg) (ra : Reg) (rb : Reg) (rc : Reg) (re : Reg) : RowFields.Statement (.ebSimInter rd ra rb rc re) :=
  rowR (by decide)

theorem RowFields.ebSimJoint (rd : Reg) (ra : Reg) (rb : Reg) (rc : Reg) (re : Reg) : RowFields.Statement (.ebSimJoint rd ra rb rc re) :=
  rowR (by decide)

end Sys2Proof.Laws
end

