-- ==== Sys2Proof/Laws/Truth.lean ====
section
/-! SUPPORT. The tests of a context's truth hold in a context that is true (70_reset R368): each is one lemma,
from the terms of `Safety` to the Boolean that a command evaluates. -/

namespace Sys2Proof.Machine

theorem noDivisor_of_prime {p : Nat} (hp : Nat.Prime p) :
    ∀ fuel d, 2 ≤ d → noDivisor p fuel d = true := by
  intro fuel
  induction fuel with
  | zero => intros; rfl
  | succ k ih =>
    intro d hd
    unfold noDivisor
    split
    · rfl
    · rename_i hlt
      have hne : p % d ≠ 0 := fun h => by
        rcases (Nat.dvd_prime hp).mp (Nat.dvd_of_mod_eq_zero h) with rfl | rfl <;> nlinarith
      rw [if_neg hne]
      exact ih _ (by omega)

/-- Where p is prime the results of the `FP` commands are specified. -/
theorem isPrime_of_prime {p : Nat} (hp : Nat.Prime p) : isPrime p = true := by
  simp [isPrime, hp.two_le, noDivisor_of_prime hp]

theorem fpTrue_of_prime {s : State} (hp : Nat.Prime s.ctx.fpP) : fpTrue s = true := isPrime_of_prime hp

theorem isField_of_fieldPoly {m f : Nat} (h : FieldPoly m f) : isField m f = true := by
  rw [isField, Bool.or_eq_true]
  refine .inr (decide_eq_true fun a ha h0 => ?_)
  obtain ⟨x, hx, he⟩ := h.2.2 a h0 ha
  exact ⟨x, hx, he⟩

/-- Where f makes a field the results of the `FB` commands are specified. -/
theorem fbTrue_of_fieldPoly {s : State} (h : FieldPoly s.build.m (fbPoly s)) : fbTrue s = true :=
  isField_of_fieldPoly h

theorem hasOrder_of_HasOrder {o : PtOps Pt} {n x y : Nat} (h : HasOrder o n (.aff x y)) :
    hasOrder o n (.aff x y) = true := by
  simp only [hasOrder, h.1, h.2.1, decide_true, Bool.and_eq_true, Bool.or_eq_true, beq_self_eq_true]
  exact ⟨⟨⟨trivial, trivial⟩, by simp⟩, .inr (decide_eq_true fun d hd h0 => h.2.2 d h0 hd)⟩

theorem hasCount_of_eq {q n h : Nat} {on : Nat → Nat → Bool} (he : pointCount q on = n * h) :
    hasCount q n h on = true := by simp [hasCount, he]

/-- In a true prime context the results of the `EP` commands are specified. -/
theorem epTrue_of_EpTrue {s : State} (h : EpTrue s) : epTrue s = true := by
  have hs : (4 * s.valFp s.ctx.ep.a ^ 3 + 27 * s.valFp s.ctx.ep.b ^ 2) % s.ctx.fpP ≠ 0 := h.smooth
  have ho := hasOrder_of_HasOrder h.order
  have hc := hasCount_of_eq h.count
  have hg := h.generator
  simp only [State.epGen, State.epOps] at ho hg
  simp only [epTrue, isPrime_of_prime h.prime, hg, ho, hc, Bool.and_true, Bool.true_and]
  simpa using hs

/-- In a true binary context the results of the `EB` commands and of `REC.TNAF` are specified. -/
theorem ebTrue_of_EbTrue {s : State} (h : EbTrue s) : ebTrue s = true := by
  have ho := hasOrder_of_HasOrder h.order
  have hc := hasCount_of_eq h.count
  have hk : s.ctx.ebFlags.kbltz = decide (s.ctx.eb.a ≤ 1 ∧ s.ctx.eb.b = 1) := by
    rw [Bool.eq_iff_iff, h.koblitz, decide_eq_true_iff]
  have hm : (!s.ctx.ebFlags.kbltz || s.ctx.ebFlags.muneg == decide (s.ctx.eb.a = 0)) = true := by
    cases hb : s.ctx.ebFlags.kbltz with
    | false => rfl
    | true =>
      have : s.ctx.ebFlags.muneg = decide (s.ctx.eb.a = 0) := by
        rw [Bool.eq_iff_iff, h.mu hb, decide_eq_true_iff]
      simp [this]
  simp only [State.ebOps] at ho
  simp only [ebTrue, fbTrue_of_fieldPoly h.field, h.ordinary, h.generator, ho, hc, hm, Bool.and_true,
    Bool.true_and, Bool.not_false]
  simp [h.b, ← hk]

end Sys2Proof.Machine
end

