-- ==== Sys2Proof/Machine/Asm.lean ====
section
/-! DEFINITION. The text of a command (30_encoding R102): its mnemonic and its operands, destinations
first, a register as its file's name and number. There are no pseudo-instructions (R103). -/

namespace Sys2Proof

/-- A register operand: "its file name and number with no space" (30_encoding R102). -/
def regText (file : String) (r : Reg) : String := file ++ toString r.val

/-- The file whose registers stand for a value of `sp` (30_encoding R102, 40_dv R110). The text implies `sp` by
the name of a file, so an illegal `sp` (0, 1, 9 to 15), which names none, has no text in the spec: it is
written `?`, DESIGN CHOICE (log 28). -/
def spName (sp : Nib) : String :=
  match sp.val with
  | 2 => "DV"
  | 3 => "N"
  | 4 => "RC"
  | 5 => "FP"
  | 6 => "FB"
  | 7 => "EP"
  | 8 => "EB"
  | _ => "?"

/-- A mnemonic and its operands, comma-separated. -/
def commandText (mnemonic : String) : List String → String
  | [] => mnemonic
  | a :: as => mnemonic ++ " " ++ as.foldl (fun t b => t ++ ", " ++ b) a

/-- A command as 30_encoding R102 writes it; `cnt` is written as the count n. -/
def Instr.text : Instr → String
  | .nop => commandText "NOP" []
  | .ctxInit => commandText "CTX.INIT" []
  | .clrerr => commandText "CLRERR" []
  | .dvZero sp rd => commandText "DV.ZERO" [regText (spName sp) rd]
  | .dvCopy sp rd ra => commandText "DV.COPY" [regText (spName sp) rd, regText (spName sp) ra]
  | .dvCmp sp ra rb => commandText "DV.CMP" [regText (spName sp) ra, regText (spName sp) rb]
  | .bnAdd rd ra rb => commandText "BN.ADD" [regText "N" rd, regText "N" ra, regText "N" rb]
  | .bnSub rd ra rb => commandText "BN.SUB" [regText "N" rd, regText "N" ra, regText "N" rb]
  | .bnMul rd ra rb => commandText "BN.MUL" [regText "N" rd, regText "N" ra, regText "N" rb]
  | .bnSqr rd ra => commandText "BN.SQR" [regText "N" rd, regText "N" ra]
  | .bnDiv rd rc ra rb =>
    commandText "BN.DIV" [regText "N" rd, regText "N" rc, regText "N" ra, regText "N" rb]
  | .bnMod rd ra rb => commandText "BN.MOD" [regText "N" rd, regText "N" ra, regText "N" rb]
  | .bnGcd rd ra rb => commandText "BN.GCD" [regText "N" rd, regText "N" ra, regText "N" rb]
  | .bnLsh rd ra imm16 => commandText "BN.LSH" [regText "N" rd, regText "N" ra, toString imm16.toNat]
  | .bnRsh rd ra imm16 => commandText "BN.RSH" [regText "N" rd, regText "N" ra, toString imm16.toNat]
  | .recNaf rd ra w => commandText "REC.NAF" [regText "RC" rd, regText "N" ra, toString w.val]
  | .recJsf rd ra rb => commandText "REC.JSF" [regText "RC" rd, regText "N" ra, regText "N" rb]
  | .recTnaf rd ra w => commandText "REC.TNAF" [regText "RC" rd, regText "N" ra, toString w.val]
  | .recWin rd ra w => commandText "REC.WIN" [regText "RC" rd, regText "N" ra, toString w.val]
  | .recReg rd ra w => commandText "REC.REG" [regText "RC" rd, regText "N" ra, toString w.val]
  | .fpAdd rd ra rb => commandText "FP.ADD" [regText "FP" rd, regText "FP" ra, regText "FP" rb]
  | .fpSub rd ra rb => commandText "FP.SUB" [regText "FP" rd, regText "FP" ra, regText "FP" rb]
  | .fpNeg rd ra => commandText "FP.NEG" [regText "FP" rd, regText "FP" ra]
  | .fpDbl rd ra => commandText "FP.DBL" [regText "FP" rd, regText "FP" ra]
  | .fpHlv rd ra => commandText "FP.HLV" [regText "FP" rd, regText "FP" ra]
  | .fpMul rd ra rb => commandText "FP.MUL" [regText "FP" rd, regText "FP" ra, regText "FP" rb]
  | .fpSqr rd ra => commandText "FP.SQR" [regText "FP" rd, regText "FP" ra]
  | .fpInv rd ra => commandText "FP.INV" [regText "FP" rd, regText "FP" ra]
  | .fpExp rd ra rb => commandText "FP.EXP" [regText "FP" rd, regText "FP" ra, regText "N" rb]
  | .fpExpMonty rd ra rb => commandText "FP.EXP.MONTY" [regText "FP" rd, regText "FP" ra, regText "N" rb]
  | .fpSrt rd ra => commandText "FP.SRT" [regText "FP" rd, regText "FP" ra]
  | .fpCmp ra rb => commandText "FP.CMP" [regText "FP" ra, regText "FP" rb]
  | .fpConv rd ra => commandText "FP.CONV" [regText "FP" rd, regText "FP" ra]
  | .fpBack rd ra => commandText "FP.BACK" [regText "FP" rd, regText "FP" ra]
  | .fpMuln rd ra rb => commandText "FP.MULN" [regText "DV" rd, regText "FP" ra, regText "FP" rb]
  | .fpRdc rd ra => commandText "FP.RDC" [regText "FP" rd, regText "DV" ra]
  | .fpRdcn rd ra => commandText "FP.RDCN" [regText "FP" rd, regText "DV" ra]
  | .fpRdcs rd ra => commandText "FP.RDCS" [regText "FP" rd, regText "DV" ra]
  | .fbAdd rd ra rb => commandText "FB.ADD" [regText "FB" rd, regText "FB" ra, regText "FB" rb]
  | .fbMul rd ra rb => commandText "FB.MUL" [regText "FB" rd, regText "FB" ra, regText "FB" rb]
  | .fbSqr rd ra => commandText "FB.SQR" [regText "FB" rd, regText "FB" ra]
  | .fbMuln rd ra rb => commandText "FB.MULN" [regText "DV" rd, regText "FB" ra, regText "FB" rb]
  | .fbRdc rd ra => commandText "FB.RDC" [regText "FB" rd, regText "DV" ra]
  | .fbSrt rd ra => commandText "FB.SRT" [regText "FB" rd, regText "FB" ra]
  | .fbTrc ra => commandText "FB.TRC" [regText "FB" ra]
  | .fbSlv rd ra => commandText "FB.SLV" [regText "FB" rd, regText "FB" ra]
  | .fbInv rd ra => commandText "FB.INV" [regText "FB" rd, regText "FB" ra]
  | .fbInvBasic rd ra => commandText "FB.INV.BASIC" [regText "FB" rd, regText "FB" ra]
  | .fbInvBinar rd ra => commandText "FB.INV.BINAR" [regText "FB" rd, regText "FB" ra]
  | .fbInvAlmos rd ra => commandText "FB.INV.ALMOS" [regText "FB" rd, regText "FB" ra]
  | .fbInvExgcd rd ra => commandText "FB.INV.EXGCD" [regText "FB" rd, regText "FB" ra]
  | .fbInvItoht rd ra => commandText "FB.INV.ITOHT" [regText "FB" rd, regText "FB" ra]
  | .fbInvLower rd ra => commandText "FB.INV.LOWER" [regText "FB" rd, regText "FB" ra]
  | .fbInvSim rd ra cnt =>
    commandText "FB.INV.SIM" [regText "FB" rd, regText "FB" ra, toString (cnt.val + 1)]
  | .fbCmp ra rb => commandText "FB.CMP" [regText "FB" ra, regText "FB" rb]
  | .epNeg rd ra => commandText "EP.NEG" [regText "EP" rd, regText "EP" ra]
  | .epDbl rd ra => commandText "EP.DBL" [regText "EP" rd, regText "EP" ra]
  | .epAdd rd ra rb => commandText "EP.ADD" [regText "EP" rd, regText "EP" ra, regText "EP" rb]
  | .epNorm rd ra => commandText "EP.NORM" [regText "EP" rd, regText "EP" ra]
  | .epMul rd ra rb => commandText "EP.MUL" [regText "EP" rd, regText "EP" ra, regText "N" rb]
  | .epMulBasic rd ra rb => commandText "EP.MUL.BASIC" [regText "EP" rd, regText "EP" ra, regText "N" rb]
  | .epMulLwnaf rd ra rb => commandText "EP.MUL.LWNAF" [regText "EP" rd, regText "EP" ra, regText "N" rb]
  | .epMulRwnaf rd ra rb => commandText "EP.MUL.RWNAF" [regText "EP" rd, regText "EP" ra, regText "N" rb]
  | .epSim rd ra rb rc re =>
    commandText "EP.SIM" [regText "EP" rd, regText "EP" ra, regText "N" rb, regText "EP" rc, regText "N" re]
  | .epSimBasic rd ra rb rc re =>
    commandText "EP.SIM.BASIC" [regText "EP" rd, regText "EP" ra, regText "N" rb, regText "EP" rc, regText "N" re]
  | .epSimTrick rd ra rb rc re =>
    commandText "EP.SIM.TRICK" [regText "EP" rd, regText "EP" ra, regText "N" rb, regText "EP" rc, regText "N" re]
  | .epSimInter rd ra rb rc re =>
    commandText "EP.SIM.INTER" [regText "EP" rd, regText "EP" ra, regText "N" rb, regText "EP" rc, regText "N" re]
  | .epSimJoint rd ra rb rc re =>
    commandText "EP.SIM.JOINT" [regText "EP" rd, regText "EP" ra, regText "N" rb, regText "EP" rc, regText "N" re]
  | .ebNeg rd ra => commandText "EB.NEG" [regText "EB" rd, regText "EB" ra]
  | .ebDbl rd ra => commandText "EB.DBL" [regText "EB" rd, regText "EB" ra]
  | .ebAdd rd ra rb => commandText "EB.ADD" [regText "EB" rd, regText "EB" ra, regText "EB" rb]
  | .ebNorm rd ra => commandText "EB.NORM" [regText "EB" rd, regText "EB" ra]
  | .ebFrb rd ra => commandText "EB.FRB" [regText "EB" rd, regText "EB" ra]
  | .ebHlv rd ra => commandText "EB.HLV" [regText "EB" rd, regText "EB" ra]
  | .ebMul rd ra rb => commandText "EB.MUL" [regText "EB" rd, regText "EB" ra, regText "N" rb]
  | .ebMulBasic rd ra rb => commandText "EB.MUL.BASIC" [regText "EB" rd, regText "EB" ra, regText "N" rb]
  | .ebMulLwnaf rd ra rb => commandText "EB.MUL.LWNAF" [regText "EB" rd, regText "EB" ra, regText "N" rb]
  | .ebMulRwnaf rd ra rb => commandText "EB.MUL.RWNAF" [regText "EB" rd, regText "EB" ra, regText "N" rb]
  | .ebMulLodah rd ra rb => commandText "EB.MUL.LODAH" [regText "EB" rd, regText "EB" ra, regText "N" rb]
  | .ebMulHalve rd ra rb => commandText "EB.MUL.HALVE" [regText "EB" rd, regText "EB" ra, regText "N" rb]
  | .ebSim rd ra rb rc re =>
    commandText "EB.SIM" [regText "EB" rd, regText "EB" ra, regText "N" rb, regText "EB" rc, regText "N" re]
  | .ebSimBasic rd ra rb rc re =>
    commandText "EB.SIM.BASIC" [regText "EB" rd, regText "EB" ra, regText "N" rb, regText "EB" rc, regText "N" re]
  | .ebSimTrick rd ra rb rc re =>
    commandText "EB.SIM.TRICK" [regText "EB" rd, regText "EB" ra, regText "N" rb, regText "EB" rc, regText "N" re]
  | .ebSimInter rd ra rb rc re =>
    commandText "EB.SIM.INTER" [regText "EB" rd, regText "EB" ra, regText "N" rb, regText "EB" rc, regText "N" re]
  | .ebSimJoint rd ra rb rc re =>
    commandText "EB.SIM.JOINT" [regText "EB" rd, regText "EB" ra, regText "N" rb, regText "EB" rc, regText "N" re]

end Sys2Proof
end

