-- ==== Sys2Proof/Tests/Slice0.lean ====
section
/-! SUPPORT. Tests. Expected values are those of spec/95_test_vectors.md (the section is named at each
group) or are worked by hand from the rule named; the words of the decoding tests are written out from the
bit positions of 30_encoding R91, R93 and the table of R95. Each step test presents one command word to the
command port. The witnesses show, for every statement with hypotheses, a state that meets them. -/

namespace Sys2Proof.Tests

set_option Elab.async false

open Sys2Proof.Machine

/-! The contexts of 95 section 1.2, and a small binary one: GF(8) with f = z³ + z + 1 and the curve
y² + xy = x³ + x² + 1, of order 14. -/

/-- The staged context of 95 section 1.2. -/
def staged : Ctx :=
  { Ctx.zero Build.toy with
    fpP := 65521
    sfCnt := 2
    sfTop := 16
    sfTerms := [⟨true, 4⟩, ⟨false, 0⟩, ⟨false, 0⟩, ⟨false, 0⟩]
    ep := ⟨65476, 45, 15, 15, 65563, 1⟩
    fa := 3
    eb := ⟨1, 1, 3, 0x17588, 65587, 2⟩
    ebFlags := ⟨true, false, false⟩ }

/-- The state before `CTX.INIT` in 95 section 1.2. -/
def before : State := { State.reset with ctx := staged }

/-- The state after `CTX.INIT` in 95 section 1.2. -/
def toy : State :=
  { before with
    ctx := { staged with fpU := 0xEF, fpOne := 15, rr := 225 }
    status := ⟨false, true, false, true⟩ }

/-- The same on the build `TOY-S`. -/
def toyS : State :=
  { toy with
    build := Build.toyS
    ctx := { toy.ctx with fpOne := 1, ep := ⟨65518, 3, 1, 1, 65563, 1⟩ } }

/-- A build with m = 3. -/
def tinyBuild : Build := { Build.toy with m := 3, chain := [(0, 0)] }

/-- The state after CTX.INIT with the small binary field. -/
def tiny : State :=
  { State.resetOf tinyBuild with
    ctx := { toy.ctx with fa := 1, eb := ⟨1, 1, 3, 0, 7, 2⟩ }
    status := ⟨false, true, false, true⟩ }

/-- The state an outcome leads to; the reset state where it is none. -/
def after (o : Host.Outcome State Fault Refusal) : State :=
  match o with
  | .next s => s
  | _ => State.reset

/-- The state after the step that takes the command word `w` at the port. -/
def ran (w : Nat) (s : State) : State := after (step (s.withFetchWord 32 w))

/-- The prime generator of 95 section 1.2, normalised, in Montgomery form. -/
def gP : PointReg := ⟨15, 15, 15, true⟩

/-- The binary generator of 95 section 1.2. -/
def gB : PointReg := ⟨0x3, 0x17588, 1, true⟩

/-! WellFormed: one ill-formed term for each check of 30_encoding R104. -/

theorem test_ill_formed_zero_sp :
    (Instr.dvZero 0 1).wf = false := by decide

theorem test_ill_formed_copy_sp :
    (Instr.dvCopy 9 1 2).wf = false := by decide

theorem test_ill_formed_cmp_sp :
    (Instr.dvCmp 7 1 2).wf = false := by decide

theorem test_ill_formed_div :
    (Instr.bnDiv 4 4 0 1).wf = false := by decide

theorem test_ill_formed_naf :
    (Instr.recNaf 2 1 1).wf = false := by decide

theorem test_ill_formed_jsf :
    (Instr.recJsf 1 1 2).wf = false := by decide

theorem test_ill_formed_tnaf :
    (Instr.recTnaf 2 1 9).wf = false := by decide

theorem test_ill_formed_win :
    (Instr.recWin 3 1 0).wf = false := by decide

theorem test_ill_formed_reg :
    (Instr.recReg 4 1 9).wf = false := by decide

theorem test_ill_formed_sim_source :
    (Instr.fbInvSim 8 15 1).wf = false := by decide

theorem test_ill_formed_sim_target :
    (Instr.fbInvSim 12 0 4).wf = false := by decide

theorem test_well_formed :
    (Instr.dvZero 8 1).wf = true ∧ (Instr.recNaf 2 1 8).wf = true ∧ (Instr.fbInvSim 0 0 15).wf = true := by decide

/-! Decoding: every constructor, by a word of its row. -/

theorem test_decode_sys :
    decodeTableWord 32 0x00000000 = some (.nop) ∧
    decodeTableWord 32 0x01000000 = some (.ctxInit) ∧
    decodeTableWord 32 0x02000000 = some (.clrerr) := by decide +kernel

theorem test_decode_dv :
    decodeTableWord 32 0x10400003 = some (.dvZero 3 4) ∧
    decodeTableWord 32 0x11310005 = some (.dvCopy 5 3 1) ∧
    decodeTableWord 32 0x12001002 = some (.dvCmp 2 0 1) := by decide +kernel

theorem test_decode_bn :
    decodeTableWord 32 0x20201000 = some (.bnAdd 2 0 1) ∧
    decodeTableWord 32 0x21201000 = some (.bnSub 2 0 1) ∧
    decodeTableWord 32 0x22301000 = some (.bnMul 3 0 1) ∧
    decodeTableWord 32 0x23300000 = some (.bnSqr 3 0) ∧
    decodeTableWord 32 0x24401500 = some (.bnDiv 4 5 0 1) ∧
    decodeTableWord 32 0x25601000 = some (.bnMod 6 0 1) ∧
    decodeTableWord 32 0x26901000 = some (.bnGcd 9 0 1) ∧
    decodeTableWord 32 0x2771003C = some (.bnLsh 7 1 60) ∧
    decodeTableWord 32 0x28800001 = some (.bnRsh 8 0 1) := by decide +kernel

theorem test_decode_rec :
    decodeTableWord 32 0x30210004 = some (.recNaf 2 1 4) ∧
    decodeTableWord 32 0x31012000 = some (.recJsf 0 1 2) ∧
    decodeTableWord 32 0x32510004 = some (.recTnaf 5 1 4) ∧
    decodeTableWord 32 0x33310008 = some (.recWin 3 1 8) ∧
    decodeTableWord 32 0x34410004 = some (.recReg 4 1 4) := by decide +kernel

theorem test_decode_fp :
    decodeTableWord 32 0x40201000 = some (.fpAdd 2 0 1) ∧
    decodeTableWord 32 0x41201000 = some (.fpSub 2 0 1) ∧
    decodeTableWord 32 0x42200000 = some (.fpNeg 2 0) ∧
    decodeTableWord 32 0x43200000 = some (.fpDbl 2 0) ∧
    decodeTableWord 32 0x44200000 = some (.fpHlv 2 0) ∧
    decodeTableWord 32 0x45201000 = some (.fpMul 2 0 1) ∧
    decodeTableWord 32 0x46200000 = some (.fpSqr 2 0) ∧
    decodeTableWord 32 0x47200000 = some (.fpInv 2 0) ∧
    decodeTableWord 32 0x48201000 = some (.fpExp 2 0 1) ∧
    decodeTableWord 32 0x48731010 = some (.fpExpMonty 7 3 1) ∧
    decodeTableWord 32 0x49200000 = some (.fpSrt 2 0) ∧
    decodeTableWord 32 0x4A001000 = some (.fpCmp 0 1) ∧
    decodeTableWord 32 0x4B200000 = some (.fpConv 2 0) ∧
    decodeTableWord 32 0x4C200000 = some (.fpBack 2 0) ∧
    decodeTableWord 32 0x4D001000 = some (.fpMuln 0 0 1) ∧
    decodeTableWord 32 0x4E200000 = some (.fpRdc 2 0) ∧
    decodeTableWord 32 0x4E200010 = some (.fpRdcn 2 0) ∧
    decodeTableWord 32 0x4E200020 = some (.fpRdcs 2 0) := by decide +kernel

theorem test_decode_fb :
    decodeTableWord 32 0x50201000 = some (.fbAdd 2 0 1) ∧
    decodeTableWord 32 0x51201000 = some (.fbMul 2 0 1) ∧
    decodeTableWord 32 0x52600000 = some (.fbSqr 6 0) ∧
    decodeTableWord 32 0x53001000 = some (.fbMuln 0 0 1) ∧
    decodeTableWord 32 0x54200000 = some (.fbRdc 2 0) ∧
    decodeTableWord 32 0x55500000 = some (.fbSrt 5 0) ∧
    decodeTableWord 32 0x560D0000 = some (.fbTrc 13) ∧
    decodeTableWord 32 0x57400000 = some (.fbSlv 4 0) ∧
    decodeTableWord 32 0x5A001000 = some (.fbCmp 0 1) := by decide +kernel

theorem test_decode_fb_inv :
    decodeTableWord 32 0x58100000 = some (.fbInv 1 0) ∧
    decodeTableWord 32 0x58400010 = some (.fbInvBasic 4 0) ∧
    decodeTableWord 32 0x58500020 = some (.fbInvBinar 5 0) ∧
    decodeTableWord 32 0x58600030 = some (.fbInvAlmos 6 0) ∧
    decodeTableWord 32 0x58100040 = some (.fbInvExgcd 1 0) ∧
    decodeTableWord 32 0x58300050 = some (.fbInvItoht 3 0) ∧
    decodeTableWord 32 0x58700060 = some (.fbInvLower 7 0) ∧
    decodeTableWord 32 0x59800001 = some (.fbInvSim 8 0 1) := by decide +kernel

theorem test_decode_ep :
    decodeTableWord 32 0x60410000 = some (.epNeg 4 1) ∧
    decodeTableWord 32 0x61210000 = some (.epDbl 2 1) ∧
    decodeTableWord 32 0x62512000 = some (.epAdd 5 1 2) ∧
    decodeTableWord 32 0x63210000 = some (.epNorm 2 1) ∧
    decodeTableWord 32 0x70313000 = some (.epMul 3 1 3) ∧
    decodeTableWord 32 0x70313010 = some (.epMulBasic 3 1 3) ∧
    decodeTableWord 32 0x70313020 = some (.epMulLwnaf 3 1 3) ∧
    decodeTableWord 32 0x70313030 = some (.epMulRwnaf 3 1 3) ∧
    decodeTableWord 32 0x71011202 = some (.epSim 0 1 1 2 2) ∧
    decodeTableWord 32 0x71011212 = some (.epSimBasic 0 1 1 2 2) ∧
    decodeTableWord 32 0x71011222 = some (.epSimTrick 0 1 1 2 2) ∧
    decodeTableWord 32 0x71011232 = some (.epSimInter 0 1 1 2 2) ∧
    decodeTableWord 32 0x7151324E = some (.epSimJoint 5 1 3 2 14) := by decide +kernel

theorem test_decode_eb :
    decodeTableWord 32 0x80300000 = some (.ebNeg 3 0) ∧
    decodeTableWord 32 0x81100000 = some (.ebDbl 1 0) ∧
    decodeTableWord 32 0x82510000 = some (.ebAdd 5 1 0) ∧
    decodeTableWord 32 0x83120000 = some (.ebNorm 1 2) ∧
    decodeTableWord 32 0x84200000 = some (.ebFrb 2 0) ∧
    decodeTableWord 32 0x85300000 = some (.ebHlv 3 0) ∧
    decodeTableWord 32 0x90102000 = some (.ebMul 1 0 2) ∧
    decodeTableWord 32 0x90102010 = some (.ebMulBasic 1 0 2) ∧
    decodeTableWord 32 0x90102020 = some (.ebMulLwnaf 1 0 2) ∧
    decodeTableWord 32 0x90102030 = some (.ebMulRwnaf 1 0 2) ∧
    decodeTableWord 32 0x90102040 = some (.ebMulLodah 1 0 2) ∧
    decodeTableWord 32 0x90102050 = some (.ebMulHalve 1 0 2) ∧
    decodeTableWord 32 0x91701102 = some (.ebSim 7 0 1 1 2) ∧
    decodeTableWord 32 0x91701112 = some (.ebSimBasic 7 0 1 1 2) ∧
    decodeTableWord 32 0x91701122 = some (.ebSimTrick 7 0 1 1 2) ∧
    decodeTableWord 32 0x91701132 = some (.ebSimInter 7 0 1 1 2) ∧
    decodeTableWord 32 0x9151324E = some (.ebSimJoint 5 1 3 2 14) := by decide +kernel

theorem test_decode_undefined :
    decode 0xA0000000 = .error .badOp ∧ decode 0x58100070 = .error .badVar ∧
    decode 0x70313040 = .error .badVar ∧ decode 0x40123001 = .error .notZero ∧
    decode 0x02000001 = .error .notZero ∧ decode 0x08000000 = .error .badOp := by decide +kernel

theorem test_assembler_examples :
    (decodeTableWord 32 0x45201000).map Instr.text = some "FP.MUL FP2, FP0, FP1" ∧
    (decodeTableWord 32 0x24134200).map Instr.text = some "BN.DIV N1, N2, N3, N4" ∧
    (decodeTableWord 32 0x27550011).map Instr.text = some "BN.LSH N5, N5, 17" ∧
    (decodeTableWord 32 0x30070004).map Instr.text = some "REC.NAF RC0, N7, 4" ∧
    (decodeTableWord 32 0x58100040).map Instr.text = some "FB.INV.EXGCD FB1, FB0" ∧
    (decodeTableWord 32 0x71011242).map Instr.text = some "EP.SIM.JOINT EP0, EP1, N1, EP2, N2" ∧
    (decodeTableWord 32 0x10300007).map Instr.text = some "DV.ZERO EP3" ∧
    (decodeTableWord 32 0x59800003).map Instr.text = some "FB.INV.SIM FB8, FB0, 4" := by decide +kernel

/-! 95 section 1.2, 3.8: the context and the system commands. -/

theorem test_ctx_init_toy :
    (ran 0x01000000 { before with tape := [0, 0, 0] }) = { toy with draws := 3 } ∧
    (ran 0x01000000 { before with tape := [0, 0, 0] }).status.word = 0x0000000A := by decide +kernel

theorem test_ctx_init_even_p :
    (ran 0x01000000 { before with ctx := { staged with fpP := 0xFFF0 } }).err.word = 0x00000103 ∧
    (ran 0x01000000 { before with ctx := { staged with fpP := 0xFFF0 } }).status.word = 0x4 := by decide +kernel

theorem test_ctx_init_twice :
    (ran 0x01000000 toy).err.word = 0x00000104 := by decide +kernel

theorem test_nop_after_reset :
    (ran 0x00000000 State.reset).status.word = 0x2 := by decide +kernel

theorem test_clrerr :
    (ran 0x02000000 (ran 0xA0000000 toy)).status.word = 0x0000000A ∧
    (ran 0x02000000 (ran 0xA0000000 toy)).err.word = 0 := by decide +kernel

theorem test_malformed_clrerr :
    (ran 0x02000001 (ran 0xA0000000 toy)).err.word = 0x00000203 ∧
    (ran 0xA0000000 toy).err.word = 0x0000A003 := by decide +kernel

theorem test_dropped :
    (ran 0x45201000 (hostFault .invalidInput toy)) = hostFault .invalidInput toy := by decide +kernel

/-! 95 section 3.8: host transactions. -/

theorem test_host_write_locked :
    (after (step { toy with inbox := [.present (.write ⟨1, 0, 0, 0⟩ 7)] })).err.word = 0x00000004 ∧
    (after (step { toy with inbox := [.present (.write ⟨1, 0, 0, 0⟩ 7)] })).ctx = toy.ctx := by decide +kernel

theorem test_host_write_status :
    (after (step { toy with inbox := [.present (.write ⟨0, 0, 0, 1⟩ 0)] })).err.word = 0x00000003 := by decide +kernel

theorem test_host_read_unmapped :
    (after (step { toy with inbox := [.present (.read ⟨9, 0, 0, 0⟩)] })).reply = some 0 ∧
    (after (step { toy with inbox := [.present (.read ⟨9, 0, 0, 0⟩)] })).err.word = 0x00000003 := by decide +kernel

theorem test_host_write_digit :
    (after (step { toy with inbox := [.present (.write ⟨5, 3, 0, 1⟩ 0xAB)] })).fp[(3 : Reg)] = 0xAB00 := by decide +kernel

theorem test_host_read_chain :
    (after (step { toy with inbox := [.present (.read ⟨1, 4, 0, 3⟩)] })).reply = some 0x0202 := by decide +kernel

theorem test_host_stage_term :
    (after (step { State.reset with inbox := [.present (.write ⟨1, 2, 0, 2⟩ 0x80000004)] })).ctx.sfTerms.head? = some ⟨true, 4⟩ := by decide +kernel

theorem test_status_read_while_busy :
    after (step { toy with
      running := some 0
      status := ⟨true, false, false, true⟩
      inbox := [.present (.read statusAddr)] }) =
    { toy with running := some 0, status := ⟨true, false, false, true⟩, reply := some 9 } := by decide +kernel

theorem test_reset_while_busy :
    after (step { toy with
      tape := [0]
      inbox := [.present (.write cmdAddr 0x01000000), .present .reset] }) = { State.reset with draws := 1 } := by decide +kernel

theorem test_write_while_busy :
    after (step { toy with
      running := some 0
      inbox := [.present (.write cmdAddr 0), .present (.read statusAddr)] }) =
    { toy with running := some 0, held := [.write cmdAddr 0], inbox := [.present (.read statusAddr)] } := by decide +kernel

theorem test_status_read_passes_held :
    after (step { toy with
      running := some 0
      status := ⟨true, false, false, true⟩
      held := [.read ⟨0, 0, 0, 2⟩]
      inbox := [.present (.read statusAddr)] }) =
    { toy with
      running := some 0
      status := ⟨true, false, false, true⟩
      held := [.read ⟨0, 0, 0, 2⟩]
      reply := some 9 } := by decide +kernel

theorem test_reset_passes_held :
    after (step { toy with
      running := some 0
      held := [.read statusAddr]
      inbox := [.present .reset]
      tape := [1] }) = { State.reset with held := [.read statusAddr], draws := 1 } := by decide +kernel

/-- 20_memory R80: a read of `STATUS` is answered while a command runs that had itself waited: bits 0 and 3. -/
theorem test_status_read_during_held_command :
    after (step { toy with held := [.write cmdAddr 0], inbox := [.present (.read statusAddr)] }) =
    { toy with running := some 0, status := ⟨true, false, false, true⟩, reply := some 9 } := by decide +kernel

/-- A pause lasts as long as one command: NOP ends, what waits and what comes next are as they were. -/
theorem test_pause :
    after (step { toy with
      running := some 0
      status := ⟨true, false, false, true⟩
      held := [.write cmdAddr 0]
      inbox := [.pause, .present (.read statusAddr)] }) =
    { toy with held := [.write cmdAddr 0], inbox := [.present (.read statusAddr)] } := by decide +kernel

theorem test_held_first :
    after (step { toy with held := [.read statusAddr], inbox := [.present .reset] }) =
    { toy with inbox := [.present .reset], reply := some 10 } := by decide +kernel

/-! 95 section 3.1: digit vectors. -/

theorem test_dv_zero :
    (ran 0x10400003 (toy.putN 4 (-7))).n[(4 : Reg)] = ⟨false, 0⟩ ∧ (ran 0x10000000 toy).err.word = 0x00001003 := by decide +kernel

theorem test_dv_copy :
    (ran 0x11310005 (toy.putFp 1 65525)).fp[(3 : Reg)] = 65525 := by decide +kernel

theorem test_dv_cmp :
    (ran 0x12001003 ((toy.putN 0 (-9)).putN 1 5)).flags.word = 2 ∧ (ran 0x12001007 toy).err.word = 0x00001203 := by decide +kernel

/-! 95 section 3.2: integers. -/

theorem test_bn_add :
    (ran 0x20201000 ((toy.putN 0 (-5)).putN 1 (3))).n[(2 : Reg)] = ⟨true, 2⟩ ∧
    (ran 0x20201000 ((toy.putN 0 (2 ^ 63)).putN 1 (2 ^ 63))).err.word = 0x00002002 := by decide +kernel

theorem test_bn_sub :
    (ran 0x21201000 ((toy.putN 0 (3)).putN 1 (5))).n[(2 : Reg)].val = -2 := by decide +kernel

theorem test_bn_mul :
    (ran 0x22301000 ((toy.putN 0 (-7)).putN 1 (6))).n[(3 : Reg)].val = -42 ∧ (ran 0x22301000 ((toy.putN 0 (-7)).putN 1 (0))).n[(3 : Reg)] = ⟨false, 0⟩ := by decide +kernel

theorem test_bn_sqr :
    (ran 0x23300000 ((toy.putN 0 (-12)).putN 1 (0))).n[(3 : Reg)].val = 144 := by decide +kernel

theorem test_bn_div :
    (ran 0x24401500 ((toy.putN 0 (-7)).putN 1 (2))).n[(4 : Reg)].val = -3 ∧ (ran 0x24401500 ((toy.putN 0 (-7)).putN 1 (2))).n[(5 : Reg)].val = -1 ∧
    (ran 0x24401500 ((toy.putN 0 (7)).putN 1 (-2))).n[(4 : Reg)].val = -3 ∧ (ran 0x24401500 ((toy.putN 0 (7)).putN 1 (-2))).n[(5 : Reg)].val = 1 := by decide +kernel

theorem test_bn_div_by_zero :
    (ran 0x24401500 ((toy.putN 0 (5)).putN 1 (0))).err.word = 0x00002403 := by decide +kernel

theorem test_bn_mod :
    (ran 0x25601000 ((toy.putN 0 (-7)).putN 1 (5))).n[(6 : Reg)].val = 3 ∧ (ran 0x25601000 ((toy.putN 0 (7)).putN 1 (-5))).n[(6 : Reg)].val = 2 := by decide +kernel

theorem test_bn_gcd :
    (ran 0x26901000 ((toy.putN 0 (-12)).putN 1 (18))).n[(9 : Reg)].val = 6 ∧ (ran 0x26901000 ((toy.putN 0 (0)).putN 1 (-9))).n[(9 : Reg)].val = 9 := by decide +kernel

theorem test_bn_lsh :
    (ran 0x2771003C ((toy.putN 0 (0)).putN 1 (0xD))).n[(7 : Reg)].mag = 0xD000000000000000 ∧
    (ran 0x2771003E ((toy.putN 0 (0)).putN 1 (0xD))).err.word = 0x00002702 := by decide +kernel

theorem test_bn_rsh :
    (ran 0x28800001 ((toy.putN 0 (-5)).putN 1 (0))).n[(8 : Reg)].val = -2 ∧ (ran 0x28800001 ((toy.putN 0 (-1)).putN 1 (0))).n[(8 : Reg)] = ⟨false, 0⟩ := by decide +kernel

theorem test_bn_negative_zero :
    (ran 0x20201000 { toy with n := toy.n.set 0 ⟨true, 0⟩ }).err.word = 0x00002003 := by decide +kernel

/-! 95 section 3.3: recodings. -/

theorem test_rec_naf :
    ((ran 0x30210004 (toy.putN 1 (0xD5))).rc[(2 : Reg)].d.take 10) =
    [5, 0, 0, 0, 0xFD, 0, 0, 0, 1, 0] ∧ (ran 0x30210004 (toy.putN 1 (-13))).err.word = 0x00003003 := by decide +kernel

theorem test_rec_naf_length :
    (ran 0x30210002 (toy.putN 1 255)).rc[(2 : Reg)].len = 9 := by decide +kernel

theorem test_rec_jsf :
    ((ran 0x31012000 ((toy.putN 1 0xD5).putN 2 0x87)).rc[(0 : Reg)].d.take 9) = [1, 0, 0xFF, 0xFF, 0, 0xFF, 0, 0, 1] ∧
    ((ran 0x31012000 ((toy.putN 1 0xD5).putN 2 0x87)).rc[(1 : Reg)].d.take 9) = [0xFF, 0, 0, 1, 0, 0, 0, 1, 0] := by decide +kernel

theorem test_rec_win :
    ((ran 0x33310003 (toy.putN 1 (0xD5))).rc[(3 : Reg)].d.take 4) = [5, 2, 3, 0] ∧ ((ran 0x33310008 (toy.putN 1 (0xFF))).rc[(3 : Reg)].d.take 2) = [0xFF, 0] := by decide +kernel

theorem test_rec_reg :
    (ran 0x34410004 toy).err.word = 0x00003404 ∧ (ran 0x34410009 toy).err.word = 0x00003403 := by decide +kernel

theorem test_rec_tnaf_zero :
    (ran 0x32510004 toy).rc[(5 : Reg)] = ⟨0, List.replicate 65 0⟩ := by decide +kernel

theorem test_rec_tnaf_one :
    (ran 0x32510004 { toy.putN 1 1 with tape := [1, 1] }).rc[(5 : Reg)] =
    ⟨1, 1 :: List.replicate 64 0⟩ := by decide +kernel

theorem test_rec_tnaf_any :
    (ran 0x32510004 { toy.putN 1 12345 with tape := [0] }).status.done = true ∧
    (ran 0x32510004 { toy.putN 1 12345 with tape := [0] }).rc[(5 : Reg)].len ≤ 21 ∧
    tnafValid toy 4 12345 (tnaf { toy with tape := [0] } 4 12345) = true := by decide +kernel

theorem test_rec_tnaf_not_koblitz :
    (ran 0x32510004 { toy with ctx := { toy.ctx with ebFlags := ⟨false, false, false⟩ } }).err.word =
    0x00003204 := by decide +kernel

/-! 95 section 3.4: the prime field. -/

theorem test_fp_add :
    (ran 0x40201000 ((toy.putFp 0 65520).putFp 1 2)).fp[(2 : Reg)] = 1 := by decide +kernel

theorem test_fp_sub :
    (ran 0x41201000 ((toy.putFp 0 1).putFp 1 2)).fp[(2 : Reg)] = 65520 := by decide +kernel

theorem test_fp_neg :
    (ran 0x42200000 (toy.putFp 0 1)).fp[(2 : Reg)] = 65520 ∧ (ran 0x42200000 (toy.putFp 0 0)).fp[(2 : Reg)] = 0 := by decide +kernel

theorem test_fp_dbl :
    (ran 0x43200000 (toy.putFp 0 40000)).fp[(2 : Reg)] = 14479 := by decide +kernel

theorem test_fp_hlv :
    (ran 0x44200000 (toy.putFp 0 1)).fp[(2 : Reg)] = 32761 ∧ (ran 0x44200000 (toy.putFp 0 6)).fp[(2 : Reg)] = 3 := by decide +kernel

theorem test_fp_mul :
    (ran 0x45201000 ((toy.putFp 0 30).putFp 1 45)).fp[(2 : Reg)] = 90 ∧ (ran 0x45201000 ((toyS.putFp 0 30).putFp 1 45)).fp[(2 : Reg)] = 1350 := by decide +kernel

theorem test_fp_sqr :
    (ran 0x46200000 (toy.putFp 0 30)).fp[(2 : Reg)] = 60 := by decide +kernel

theorem test_fp_inv :
    (ran 0x47200000 (toy.putFp 0 30)).fp[(2 : Reg)] = 32768 ∧ (ran 0x47200000 (toy.putFp 0 0)).err.word = 0x00004703 := by decide +kernel

theorem test_fp_exp :
    (ran 0x48201000 ((toy.putFp 0 45).putN 1 5)).fp[(2 : Reg)] = 3645 ∧
    (ran 0x48201000 ((toy.putFp 0 30).putN 1 (-1))).fp[(2 : Reg)] = 32768 := by decide +kernel

theorem test_fp_exp_monty :
    (ran 0x48731010 ((toy.putFp 3 45).putN 1 5)).fp[(7 : Reg)] = 3645 := by decide +kernel

theorem test_fp_srt :
    (ran 0x49200000 { toy.putFp 0 60 with tape := [0] }).flags.t = true ∧
    [30, 65491].contains (ran 0x49200000 { toy.putFp 0 60 with tape := [0] }).fp[(2 : Reg)] = true := by decide +kernel

theorem test_fp_srt_nonresidue :
    (ran 0x49200000 (toy.putFp 0 255)).flags.t = false ∧ (ran 0x49200000 (toy.putFp 0 255)).fp[(2 : Reg)] = 0 := by decide +kernel

theorem test_fp_cmp :
    (ran 0x4A001000 ((toy.putFp 0 5).putFp 1 9)).flags.word = 1 ∧ (ran 0x4A001000 ((toy.putFp 0 9).putFp 1 5)).flags.word = 2 := by decide +kernel

theorem test_fp_conv :
    (ran 0x4B200000 (toy.putFp 0 2)).fp[(2 : Reg)] = 30 ∧ (ran 0x4B200000 (toy.putFp 0 65520)).fp[(2 : Reg)] = 65506 := by decide +kernel

theorem test_fp_back :
    (ran 0x4C200000 (toy.putFp 0 90)).fp[(2 : Reg)] = 6 := by decide +kernel

theorem test_fp_muln :
    (ran 0x4D001000 ((toy.putFp 0 30).putFp 1 45)).dv[(0 : Reg)] = 1350 := by decide +kernel

theorem test_fp_rdcn :
    (ran 0x4E200010 (toy.putDv 0 0xFFF0FFFF)).fp[(2 : Reg)] = 4368 ∧
    (ran 0x4E200010 (toy.putDv 0 0xFFF10000)).err.word = 0x00004E03 := by decide +kernel

theorem test_fp_rdcs :
    (ran 0x4E200020 (toy.putDv 0 0xFFFFFF)).fp[(2 : Reg)] = 3839 ∧
    (ran 0x4E200020 (toy.putDv 0 0xFFFFFFFF)).fp[(2 : Reg)] = 224 := by decide +kernel

theorem test_fp_rdc :
    (ran 0x4E200000 (toy.putDv 0 1350)).fp[(2 : Reg)] = 90 ∧ (ran 0x4E200000 (toyS.putDv 0 1350)).fp[(2 : Reg)] = 1350 := by decide +kernel

theorem test_fp_before_init :
    (ran 0x40201000 State.reset).err.word = 0x00004004 := by decide +kernel

/-! 95 section 3.5: the binary field. -/

theorem test_fb_add :
    (ran 0x50201000 ((toy.putFb 0 0x1ABCD).putFb 1 0x00123)).fb[(2 : Reg)] = 0x1AAEE := by decide +kernel

theorem test_fb_mul :
    (ran 0x51201000 ((toy.putFb 0 0x1ABCD).putFb 1 0x00123)).fb[(2 : Reg)] = 0x04E49 := by decide +kernel

theorem test_fb_sqr :
    (ran 0x52600000 (toy.putFb 0 0x1ABCD)).fb[(6 : Reg)] = 0x0E371 ∧ (ran 0x52600000 (toy.putFb 0 0x10000)).fb[(6 : Reg)] = 0x08012 := by decide +kernel

theorem test_fb_muln :
    (ran 0x53001000 ((toy.putFb 0 0x1ABCD).putFb 1 0x00123)).dv[(0 : Reg)] = 0x19C48F7 := by decide +kernel

theorem test_fb_rdc :
    (ran 0x54200000 (toy.putDv 0 0x19C48F7)).fb[(2 : Reg)] = 0x04E49 := by decide +kernel

theorem test_fb_srt :
    (ran 0x55500000 (toy.putFb 0 0x1ABCD)).fb[(5 : Reg)] = 0x1F6F3 := by decide +kernel

theorem test_fb_trc :
    (ran 0x56000000 (toy.putFb 0 0x2)).flags.t = false ∧ (ran 0x56000000 (toy.putFb 0 0x3)).flags.t = true := by decide +kernel

theorem test_fb_slv :
    (ran 0x57400000 (toy.putFb 0 0x2)).fb[(4 : Reg)] = 0x04C3E ∧ (ran 0x57400000 (toy.putFb 0 0x10000)).fb[(4 : Reg)] = 0x04D28 := by decide +kernel

theorem test_fb_cmp :
    (ran 0x5A001000 ((toy.putFb 0 0x2).putFb 1 0x3)).flags.word = 1 := by decide +kernel

theorem test_fb_inv :
    (ran 0x58100000 (toy.putFb 0 0x2)).fb[(1 : Reg)] = 0x10004 ∧ (ran 0x58100000 (toy.putFb 0 0)).err.word = 0x00005803 := by decide +kernel

theorem test_fb_inv_basic :
    (ran 0x58400010 (toy.putFb 0 0x1ABCD)).fb[(4 : Reg)] = 0x0529E := by decide +kernel

theorem test_fb_inv_binar :
    (ran 0x58500020 (toy.putFb 0 0x1ABCD)).fb[(5 : Reg)] = 0x0529E := by decide +kernel

theorem test_fb_inv_almos :
    (ran 0x58600030 (toy.putFb 0 0x1ABCD)).fb[(6 : Reg)] = 0x0529E := by decide +kernel

theorem test_fb_inv_exgcd :
    (ran 0x58100040 (toy.putFb 0 0x1ABCD)).fb[(1 : Reg)] = 0x0529E := by decide +kernel

theorem test_fb_inv_itoht :
    (ran 0x58300050 (toy.putFb 0 0x1ABCD)).fb[(3 : Reg)] = 0x0529E := by decide +kernel

theorem test_fb_inv_lower :
    (ran 0x58700060 (toy.putFb 0 0x1ABCD)).fb[(7 : Reg)] = 0x0529E := by decide +kernel

theorem test_fb_inv_sim :
    (ran 0x59000001 ((toy.putFb 0 0x2).putFb 1 0x3)).fb[(0 : Reg)] = 0x10004 ∧ (ran 0x59000001 ((toy.putFb 0 0x2).putFb 1 0x3)).fb[(1 : Reg)] = 0x1FFF8 ∧
    (ran 0x598F0001 (toy.putFb 0 0x2)).err.word = 0x00005903 := by decide +kernel

/-! 95 section 3.6: the prime curve. -/

theorem test_ep_neg :
    (ran 0x60410000 (toy.putEp 1 gP)).ep[(4 : Reg)] = ⟨15, 0xFFE2, 15, true⟩ := by decide +kernel

theorem test_ep_dbl :
    (ran 0x63220000 (ran 0x61210000 { (toy.putEp 1 gP) with tape := [6, 0] })).ep[(2 : Reg)] = ⟨0xFFD3, 0xFFE2, 15, true⟩ := by decide +kernel

theorem test_ep_add :
    (ran 0x63250000 (ran 0x62512000 { ((toy.putEp 1 gP).putEp 2 ⟨0xFFD3, 0xFFE2, 15, true⟩) with tape := [6, 0] })).ep[(2 : Reg)] = ⟨0x5566, 0x71AD, 15, true⟩ := by decide +kernel

theorem test_ep_add_opposite :
    (ran 0x62514000 ((toy.putEp 1 gP).putEp 4 ⟨15, 0xFFE2, 15, true⟩)).ep[(5 : Reg)] = PointReg.infinity := by decide +kernel

theorem test_ep_norm :
    (ran 0x63220000 (toy.putEp 2 ⟨toy.repFp 65513, toy.repFp 65513, toy.repFp 2, false⟩)).ep[(2 : Reg)] =
    ⟨0xFFD3, 0xFFE2, 15, true⟩ := by decide +kernel

theorem test_ep_mul :
    (ran 0x70313000 ((toy.putEp 1 gP).putN 3 13)).ep[(3 : Reg)] = ⟨0xE439, 0x18EA, 15, true⟩ := by decide +kernel

theorem test_ep_mul_basic :
    (ran 0x70313010 ((toy.putEp 1 gP).putN 3 13)).ep[(3 : Reg)] = ⟨0xE439, 0x18EA, 15, true⟩ := by decide +kernel

theorem test_ep_mul_lwnaf :
    (ran 0x70313020 ((toy.putEp 1 gP).putN 3 13)).ep[(3 : Reg)] = ⟨0xE439, 0x18EA, 15, true⟩ := by decide +kernel

theorem test_ep_mul_rwnaf :
    (ran 0x70313030 ((toy.putEp 1 gP).putN 3 13)).ep[(3 : Reg)] = ⟨0xE439, 0x18EA, 15, true⟩ := by decide +kernel

theorem test_ep_mul_order :
    (ran 0x70313000 ((toy.putEp 1 gP).putN 3 65563)).ep[(3 : Reg)] = PointReg.infinity := by decide +kernel

theorem test_ep_sim :
    (ran 0x71011202 ((((toy.putEp 1 gP).putEp 2 ⟨0xFFD3, 0xFFE2, 15, true⟩).putN 1 3).putN 2 5)).ep[(0 : Reg)] = ⟨0xE439, 0x18EA, 15, true⟩ := by decide +kernel

theorem test_ep_sim_basic :
    (ran 0x71011212 ((((toy.putEp 1 gP).putEp 2 ⟨0xFFD3, 0xFFE2, 15, true⟩).putN 1 3).putN 2 5)).ep[(0 : Reg)] = ⟨0xE439, 0x18EA, 15, true⟩ := by decide +kernel

theorem test_ep_sim_trick :
    (ran 0x71011222 ((((toy.putEp 1 gP).putEp 2 ⟨0xFFD3, 0xFFE2, 15, true⟩).putN 1 3).putN 2 5)).ep[(0 : Reg)] = ⟨0xE439, 0x18EA, 15, true⟩ := by decide +kernel

theorem test_ep_sim_inter :
    (ran 0x71011232 ((((toy.putEp 1 gP).putEp 2 ⟨0xFFD3, 0xFFE2, 15, true⟩).putN 1 3).putN 2 5)).ep[(0 : Reg)] = ⟨0xE439, 0x18EA, 15, true⟩ := by decide +kernel

theorem test_ep_sim_joint :
    (ran 0x71011242 ((((toy.putEp 1 gP).putEp 2 ⟨0xFFD3, 0xFFE2, 15, true⟩).putN 1 3).putN 2 5)).ep[(0 : Reg)] = ⟨0xE439, 0x18EA, 15, true⟩ := by decide +kernel

theorem test_ep_off_curve :
    (ran 0x60410000 (toy.putEp 1 ⟨15, 30, 15, true⟩)).err.word = 0x00006003 := by decide +kernel

/-! 95 section 3.7: the binary curve. -/

theorem test_eb_neg :
    (ran 0x80300000 (toy.putEb 0 ⟨0x6, 0x1D632, 0x2, false⟩)).eb[(3 : Reg)] = ⟨0x6, 0x1D63E, 0x2, false⟩ := by decide +kernel

theorem test_eb_dbl :
    (ran 0x83110000 (ran 0x81100000 { (toy.putEb 0 gB) with tape := [6, 0] })).eb[(1 : Reg)] = ⟨0x0AAAD, 0x05B2B, 1, true⟩ := by decide +kernel

theorem test_eb_add :
    (ran 0x83150000 (ran 0x82510000 { ((toy.putEb 0 gB).putEb 1 ⟨0x0AAAD, 0x05B2B, 1, true⟩) with tape := [6, 0] })).eb[(1 : Reg)] = ⟨0x09325, 0x19767, 1, true⟩ := by decide +kernel

theorem test_eb_norm :
    (ran 0x83110000 (toy.putEb 1 ⟨0x6, 0x1D632, 0x2, false⟩)).eb[(1 : Reg)] = ⟨0x3, 0x17588, 1, true⟩ := by decide +kernel

theorem test_eb_frb :
    (ran 0x84200000 (toy.putEb 0 gB)).eb[(2 : Reg)] = ⟨0x5, 0x19E9A, 1, true⟩ := by decide +kernel

theorem test_eb_hlv :
    (ran 0x85300000 (toy.putEb 0 gB)).eb[(3 : Reg)] = ⟨0x19631, 0x1476C, 1, true⟩ := by decide +kernel

theorem test_eb_mul :
    (ran 0x90100000 ((toy.putEb 0 gB).putN 0 13)).eb[(1 : Reg)] = ⟨0x06743, 0x01DD6, 1, true⟩ := by decide +kernel

theorem test_eb_mul_basic :
    (ran 0x90100010 ((toy.putEb 0 gB).putN 0 13)).eb[(1 : Reg)] = ⟨0x06743, 0x01DD6, 1, true⟩ := by decide +kernel

theorem test_eb_mul_lwnaf :
    (ran 0x90100020 ((toy.putEb 0 gB).putN 0 13)).eb[(1 : Reg)] = ⟨0x06743, 0x01DD6, 1, true⟩ := by decide +kernel

theorem test_eb_mul_rwnaf :
    (ran 0x90100030 ((toy.putEb 0 gB).putN 0 13)).eb[(1 : Reg)] = ⟨0x06743, 0x01DD6, 1, true⟩ := by decide +kernel

theorem test_eb_mul_lodah :
    (ran 0x90100040 ((toy.putEb 0 gB).putN 0 13)).eb[(1 : Reg)] = ⟨0x06743, 0x01DD6, 1, true⟩ := by decide +kernel

theorem test_eb_mul_halve :
    (ran 0x90100050 ((toy.putEb 0 gB).putN 0 13)).eb[(1 : Reg)] = ⟨0x06743, 0x01DD6, 1, true⟩ := by decide +kernel

theorem test_eb_sim :
    (ran 0x91701102 ((((toy.putEb 0 gB).putEb 1 ⟨0x0AAAD, 0x05B2B, 1, true⟩).putN 1 3).putN 2 5)).eb[(7 : Reg)] = ⟨0x06743, 0x01DD6, 1, true⟩ := by decide +kernel

theorem test_eb_sim_basic :
    (ran 0x91701112 ((((toy.putEb 0 gB).putEb 1 ⟨0x0AAAD, 0x05B2B, 1, true⟩).putN 1 3).putN 2 5)).eb[(7 : Reg)] = ⟨0x06743, 0x01DD6, 1, true⟩ := by decide +kernel

theorem test_eb_sim_trick :
    (ran 0x91701122 ((((toy.putEb 0 gB).putEb 1 ⟨0x0AAAD, 0x05B2B, 1, true⟩).putN 1 3).putN 2 5)).eb[(7 : Reg)] = ⟨0x06743, 0x01DD6, 1, true⟩ := by decide +kernel

theorem test_eb_sim_inter :
    (ran 0x91701132 ((((toy.putEb 0 gB).putEb 1 ⟨0x0AAAD, 0x05B2B, 1, true⟩).putN 1 3).putN 2 5)).eb[(7 : Reg)] = ⟨0x06743, 0x01DD6, 1, true⟩ := by decide +kernel

theorem test_eb_sim_joint :
    (ran 0x91701142 ((((toy.putEb 0 gB).putEb 1 ⟨0x0AAAD, 0x05B2B, 1, true⟩).putN 1 3).putN 2 5)).eb[(7 : Reg)] = ⟨0x06743, 0x01DD6, 1, true⟩ := by decide +kernel

theorem test_eb_off_curve :
    (ran 0x80300000 (toy.putEb 0 ⟨0x3, 0x17589, 1, true⟩)).err.word = 0x00008003 := by decide +kernel

/-! 70_reset R368, by hand: in a false context a missing inverse leaves a free value. 15 = 3·5 and z² + 1 =
(z + 1)² are not prime. -/

theorem test_no_inverse :
    invMod 15 6 = none ∧ invMod 15 4 = some 4 ∧ fbInvP 2 5 3 = none ∧ fbInvP 2 5 2 = some 2 := by decide +kernel

theorem test_no_point :
    epDblPt 15 1 (.aff 1 3) = .unknown ∧ epAddPt 15 1 .unknown (.aff 1 3) = .unknown ∧
    ebDblPt 2 5 0 (.aff 3 1) = .unknown ∧ epDblPt 15 1 (.aff 1 0) = .inf := by decide +kernel

theorem test_no_root :
    sqrtMod 15 2 = none ∧ isNonSquare 15 2 = false ∧ isNonSquare 65521 17 = true := by decide +kernel

theorem test_free_point :
    (ran 0x63210000 { (toy.putEp 1 ⟨0, 0, 3, false⟩) with
      ctx := { toy.ctx with fpP := 65535, ep := ⟨0, 0, 0, 0, 0, 0⟩ }
      tape := [7, 8, 9, 0] }).ep[(2 : Reg)] = ⟨7, 8, 9, false⟩ := by decide +kernel

/-! The witnesses. States with good contexts, their registers filled so that each clause of a statement
has its case, at a boundary value where it has one. -/

/-- The toy context with N: 2⁶⁴ − 1, 1, −13, 13, 0, −2⁶³, −0, 2⁶³; FP: p − 1, 0, 60 (a square), 255 (none);
DV: R·p − 1, R·p, R² − 1, R²; EP: infinity, G, −G, a point off the curve, one not canonical. -/
def rich : State :=
  { toy with
    n := #v[⟨false, 2 ^ 64 - 1⟩, ⟨false, 1⟩, ⟨true, 13⟩, ⟨false, 13⟩, ⟨false, 0⟩, ⟨true, 2 ^ 63⟩, ⟨true, 0⟩,
      ⟨false, 2 ^ 63⟩, ⟨false, 0⟩, ⟨false, 0⟩, ⟨false, 0⟩, ⟨false, 0⟩, ⟨false, 0⟩, ⟨false, 0⟩, ⟨false, 0⟩,
      ⟨false, 0⟩]
    fp := #v[65520, 0, 60, 255, 0, 0, 0, 0, 0, 0, 0, 0, 0, 0, 0, 0]
    dv := #v[2 ^ 16 * 65521 - 1, 2 ^ 16 * 65521, 2 ^ 32 - 1, 2 ^ 32, 0, 0, 0, 0, 0, 0, 0, 0, 0, 0, 0, 0]
    ep := (((toy.ep.set 1 gP).set 2 ⟨15, 0xFFE2, 15, true⟩).set 3 ⟨15, 30, 15, true⟩).set 4
      ⟨65521, 0, 0, false⟩ }

/-- The same registers on `TOY-S`. -/
def richS : State := { rich with build := toyS.build, ctx := toyS.ctx }

/-- The small binary context with FB: 7, 0, 2, 1 and 5 last; N: 6, −5, 1; DV: 2¹⁶ − 1, 2¹⁶; EB: infinity, the point (2, 5)
of order 14, (3, 0) of order 7, one off the curve, one not canonical. -/
def richB : State :=
  { tiny with
    n := (((tiny.n.set 0 ⟨false, 6⟩).set 1 ⟨true, 5⟩).set 2 ⟨false, 1⟩).set 3 ⟨true, 0⟩
    fb := (((tiny.fb.set 0 7).set 2 2).set 14 1).set 15 5
    dv := (tiny.dv.set 0 (2 ^ 16 - 1)).set 1 (2 ^ 16)
    eb := (((tiny.eb.set 1 ⟨2, 5, 1, true⟩).set 2 ⟨3, 0, 1, true⟩).set 3 ⟨1, 0, 1, true⟩).set 4
      ⟨8, 0, 0, false⟩ }

/-- A curve over the same field that is no Koblitz curve: y² + xy = x³ + x² + z, of order 10, with a point of
order 10 and one of order 5. -/
def richN : State :=
  { richB with
    ctx := { richB.ctx with eb := ⟨1, 2, 1, 4, 5, 2⟩, ebFlags := ⟨false, false, false⟩ }
    eb := (tiny.eb.set 1 ⟨2, 4, 1, true⟩).set 2 ⟨1, 4, 1, true⟩ }

/-- A state whose every register is canonical, with both fields small enough to test their truth: p = 23, where
y² = x³ + x + 1 has 28 points and G = (5, 4) order 7, in Montgomery form with R = 256; N: 13, −5; FP: 22, 0,
5; EP: infinity, G, −G; EB: infinity, the point (2, 5). -/
def richP : State :=
  { State.resetOf { tinyBuild with fpBits := 5 } with
    ctx := { tiny.ctx with fpP := 23, fpU := 89, fpOne := 3, rr := 9, sfCnt := 0, ep := ⟨3, 3, 15, 12, 7, 4⟩ }
    status := ⟨false, true, false, true⟩
    n := (tiny.n.set 0 ⟨false, 13⟩).set 1 ⟨true, 5⟩
    fp := (tiny.fp.set 0 22).set 2 5
    ep := (tiny.ep.set 1 ⟨15, 12, 3, true⟩).set 2 ⟨15, 11, 3, true⟩
    eb := tiny.eb.set 1 ⟨2, 5, 1, true⟩ }

/-- The toy context on `MONTY` without a sparse form. -/
def richM : State := { rich with ctx := { rich.ctx with sfCnt := 0 } }

/-- The small binary context in a build that implements of each method its own variant only: `FB.INV.EXGCD`,
`EB.MUL.LODAH`, `EB.SIM.INTER`. -/
def richL : State :=
  { richB with
    build := { richB.build with fbInvSet := [.exgcd], ebMulSet := [.lodah], ebSimSet := [.inter] } }

/-- The toy contexts in builds that have the named reduction of their own back-end only. -/
def richR : State := { rich with build := { rich.build with rdcSet := [.monty] } }
def richSR : State := { richS with build := { richS.build with rdcSet := [.sparse] } }

/-- GF(32) with f = z⁵ + z² + 1 and the curve y² + xy = x³ + x² + z³ + z, of order 30, with n = 3: the point (3, 0)
has order 15. N: 2. -/
def richW : State :=
  { State.resetOf { tinyBuild with m := 5, chain := [(0, 0), (1, 1)] } with
    ctx := { toy.ctx with fa := 2, eb := ⟨1, 10, 12, 10, 3, 10⟩, ebFlags := ⟨false, false, false⟩ }
    status := ⟨false, true, false, true⟩
    n := tiny.n.set 0 ⟨false, 2⟩
    eb := tiny.eb.set 1 ⟨3, 0, 1, true⟩ }

/-- The small binary context in a build that multiplies by halving. -/
def richH : State := { richB with build := { richB.build with ebMul := .halve } }

/-- An even degree: m = 2, f = z² + z + 1. -/
def richE : State :=
  { State.resetOf { Build.toy with m := 2, chain := [] } with
    ctx := { toy.ctx with fa := 1, eb := ⟨1, 1, 0, 0, 0, 0⟩, ebFlags := ⟨false, false, false⟩ }
    status := ⟨false, true, false, true⟩ }

/-- The even degree in a build whose `FB_INV` is `BASIC`. -/
def richEB : State := { richE with build := { richE.build with fbInv := .basic } }

/-- A build without the prime units, and one without the binary units. -/
def noFp : State := { toy with build := { Build.toy with fpBits := 0 } }
def noFb : State := { toy with build := { Build.toy with m := 0 } }

/-- False contexts in which results are drawn (93 U10), and the tape: p = 21; f = (z² + z + 1)²; a wrong n; a flag
`KBLTZ` that is not true. -/
def falseP : State := { richP with ctx := { richP.ctx with fpP := 21, fpU := 195 }, tape := [17, 1] }
def falseF : State :=
  { richP with build := { richP.build with m := 4 }, ctx := { richP.ctx with fa := 2 }, tape := [13] }
def falseE : State :=
  { richP with ctx := { richP.ctx with ep := ⟨3, 3, 15, 12, 14, 2⟩ }, tape := [1, 2, 3, 0] }
def falseB : State :=
  { richB with ctx := { richB.ctx with ebFlags := ⟨false, false, false⟩ }, tape := [1, 2, 3, 0] }

/-- The state with the transaction `t` presented. -/
def presented (t : Txn) (s : State) : State := { s with inbox := [.present t] }

/-- The state with the transaction `t` waiting. -/
def waiting (t : Txn) (s : State) : State := { s with held := [t] }

/-- A presented transaction is the next to take effect where none waits. -/
theorem takes_presented (t : Txn) (s : State) (hr : s.running = none) (hh : s.held = []) :
    Takes (presented t s) t { s with inbox := [] } := ⟨hr, .inr ⟨hh, [], rfl, rfl⟩⟩

/-- A transaction that waits is the next to take effect. -/
theorem takes_waiting (t : Txn) (s : State) (hr : s.running = none) (hh : s.held = []) :
    Takes (waiting t s) t s :=
  ⟨hr, .inl ⟨[], rfl, by cases s; simp only at hh; subst hh; rfl⟩⟩

/-- `Fits` from the registers and the context of a state. -/
theorem fits_of (s : State)
    (h : (∀ r : Reg, s.n[r].mag < 2 ^ (s.build.W * s.build.bnDigs)) ∧
      (∀ r : Reg, s.fp[r] < 2 ^ (s.build.W * s.build.fpDigs)) ∧
      (∀ r : Reg, s.fb[r] < 2 ^ (s.build.W * s.build.fbDigs)) ∧
      (∀ r : Reg, s.dv[r] < 2 ^ (s.build.W * s.build.dvDigs)) ∧
      (∀ r : Reg, s.ep[r].x < 2 ^ (s.build.W * s.build.fpDigs) ∧
        s.ep[r].y < 2 ^ (s.build.W * s.build.fpDigs) ∧ s.ep[r].z < 2 ^ (s.build.W * s.build.fpDigs)) ∧
      (∀ r : Reg, s.eb[r].x < 2 ^ (s.build.W * s.build.fbDigs) ∧
        s.eb[r].y < 2 ^ (s.build.W * s.build.fbDigs) ∧ s.eb[r].z < 2 ^ (s.build.W * s.build.fbDigs)) ∧
      (∀ r : Reg, s.rc[r].d.length = s.build.rcLen ∧ s.rc[r].len ≤ s.build.rcLen))
    (v : ∀ v : CtxVec, s.ctx.vec v < 2 ^ (s.build.W * v.size s.build))
    (c : s.ctx.fpU < 2 ^ s.build.W ∧ s.ctx.rr < 2 ^ (s.build.W * s.build.fpDigs) ∧
      s.ctx.sfTerms.length = s.build.sfMax) : Fits s :=
  ⟨h.1, h.2.1, h.2.2.1, h.2.2.2.1, h.2.2.2.2.1, h.2.2.2.2.2.1, h.2.2.2.2.2.2, v, c.1, c.2.1, c.2.2⟩

theorem rich_fits : Fits rich :=
  fits_of _ (by decide +kernel) (by intro v; cases v <;> decide +kernel) (by decide +kernel)

theorem rich_sound : CtxSound rich := fun _ =>
  ⟨fun _ => ⟨⟨by decide +kernel, by decide +kernel, by decide +kernel, by decide +kernel,
      by decide +kernel, by decide +kernel⟩, ⟨by decide +kernel, by decide +kernel, by decide +kernel⟩,
      by decide +kernel⟩,
    fun _ => ⟨by decide +kernel, by decide +kernel, by decide +kernel⟩⟩

theorem rich_good : FpGood rich := ⟨by decide +kernel, rich_fits, rich_sound, by decide, by decide⟩

theorem richS_fits : Fits richS :=
  fits_of _ (by decide +kernel) (by intro v; cases v <;> decide +kernel) (by decide +kernel)

theorem richS_sound : CtxSound richS := fun _ =>
  ⟨fun _ => ⟨⟨by decide +kernel, by decide +kernel, by decide +kernel, by decide +kernel,
      by decide +kernel, by decide +kernel⟩, ⟨by decide +kernel, by decide +kernel, by decide +kernel⟩,
      by decide +kernel⟩,
    fun _ => ⟨by decide +kernel, by decide +kernel, by decide +kernel⟩⟩

theorem richS_good : FpGood richS := ⟨by decide +kernel, richS_fits, richS_sound, by decide, by decide⟩

theorem richM_fits : Fits richM :=
  fits_of _ (by decide +kernel) (by intro v; cases v <;> decide +kernel) (by decide +kernel)

theorem richM_sound : CtxSound richM := fun _ =>
  ⟨fun _ => ⟨⟨by decide +kernel, by decide +kernel, by decide +kernel, by decide +kernel,
      by decide +kernel, by decide +kernel⟩, ⟨by decide +kernel, by decide +kernel, by decide +kernel⟩,
      by decide +kernel⟩,
    fun _ => ⟨by decide +kernel, by decide +kernel, by decide +kernel⟩⟩

theorem richM_good : FpGood richM := ⟨by decide +kernel, richM_fits, richM_sound, by decide, by decide⟩

theorem richB_fits : Fits richB :=
  fits_of _ (by decide +kernel) (by intro v; cases v <;> decide +kernel) (by decide +kernel)

theorem richB_sound : CtxSound richB := fun _ =>
  ⟨fun _ => ⟨⟨by decide +kernel, by decide +kernel, by decide +kernel, by decide +kernel,
      by decide +kernel, by decide +kernel⟩, ⟨by decide +kernel, by decide +kernel, by decide +kernel⟩,
      by decide +kernel⟩,
    fun _ => ⟨by decide +kernel, by decide +kernel, by decide +kernel⟩⟩

theorem richB_good : FbGood richB := ⟨by decide +kernel, richB_fits, richB_sound, by decide, by decide⟩

theorem richN_fits : Fits richN :=
  fits_of _ (by decide +kernel) (by intro v; cases v <;> decide +kernel) (by decide +kernel)

theorem richN_sound : CtxSound richN := fun _ =>
  ⟨fun _ => ⟨⟨by decide +kernel, by decide +kernel, by decide +kernel, by decide +kernel,
      by decide +kernel, by decide +kernel⟩, ⟨by decide +kernel, by decide +kernel, by decide +kernel⟩,
      by decide +kernel⟩,
    fun _ => ⟨by decide +kernel, by decide +kernel, by decide +kernel⟩⟩

theorem richN_good : FbGood richN := ⟨by decide +kernel, richN_fits, richN_sound, by decide, by decide⟩

theorem richP_fits : Fits richP :=
  fits_of _ (by decide +kernel) (by intro v; cases v <;> decide +kernel) (by decide +kernel)

theorem richP_sound : CtxSound richP := fun _ =>
  ⟨fun _ => ⟨⟨by decide +kernel, by decide +kernel, by decide +kernel, by decide +kernel,
      by decide +kernel, by decide +kernel⟩, ⟨by decide +kernel, by decide +kernel, by decide +kernel⟩,
      by decide +kernel⟩,
    fun _ => ⟨by decide +kernel, by decide +kernel, by decide +kernel⟩⟩

theorem richP_good : FpGood richP := ⟨by decide +kernel, richP_fits, richP_sound, by decide, by decide⟩

theorem richP_canonical : Canonical richP :=
  ⟨by decide +kernel, fun _ => by decide +kernel, fun _ => by decide +kernel, fun _ => by decide +kernel,
    fun _ => by decide +kernel⟩

theorem tiny_prime : Nat.Prime richP.ctx.fpP := by
  show Nat.Prime 23
  norm_num

theorem hasOrder_of {o : PtOps Pt} {n : Nat} {G : Pt}
    (h : 0 < n ∧ mulBasic o n G = .inf ∧ ∀ d < n, 0 < d → mulBasic o d G ≠ .inf) : HasOrder o n G :=
  ⟨h.1, h.2.1, fun d h0 hd => h.2.2 d hd h0⟩

theorem richP_true : EpTrue richP :=
  ⟨tiny_prime, by unfold State.smooth; decide +kernel, by decide +kernel,
    hasOrder_of (by decide +kernel), by decide +kernel⟩

theorem richR_good : FpGood richR :=
  ⟨by decide +kernel,
    ⟨rich_fits.n, rich_fits.fp, rich_fits.fb, rich_fits.dv, rich_fits.ep, rich_fits.eb, rich_fits.rc,
      ⟨rich_fits.ctx.vec, rich_fits.ctx.fpU, rich_fits.ctx.rr, rich_fits.ctx.terms⟩⟩,
    fun _ => ⟨fun _ => by
      have h := (rich_sound rfl).1 rfl
      exact ⟨⟨h.1.odd, h.1.len, h.1.count, h.1.falling, h.1.sum, h.1.curve⟩,
        ⟨h.2.1.u, h.2.1.one, h.2.1.rr⟩, h.2.2⟩,
    fun _ => by
      have h := (rich_sound rfl).2 rfl
      exact ⟨h.shape, h.curve, h.koblitz⟩⟩, by decide, by decide⟩

theorem richSR_good : FpGood richSR :=
  ⟨by decide +kernel,
    ⟨richS_fits.n, richS_fits.fp, richS_fits.fb, richS_fits.dv, richS_fits.ep, richS_fits.eb, richS_fits.rc,
      ⟨richS_fits.ctx.vec, richS_fits.ctx.fpU, richS_fits.ctx.rr, richS_fits.ctx.terms⟩⟩,
    fun _ => ⟨fun _ => by
      have h := (richS_sound rfl).1 rfl
      exact ⟨⟨h.1.odd, h.1.len, h.1.count, h.1.falling, h.1.sum, h.1.curve⟩,
        ⟨h.2.1.u, h.2.1.one, h.2.1.rr⟩, h.2.2⟩,
    fun _ => by
      have h := (richS_sound rfl).2 rfl
      exact ⟨h.shape, h.curve, h.koblitz⟩⟩, by decide, by decide⟩

theorem richW_fits : Fits richW :=
  fits_of _ (by decide +kernel) (by intro v; cases v <;> decide +kernel) (by decide +kernel)

theorem richW_sound : CtxSound richW := fun _ =>
  ⟨fun _ => ⟨⟨by decide +kernel, by decide +kernel, by decide +kernel, by decide +kernel,
      by decide +kernel, by decide +kernel⟩, ⟨by decide +kernel, by decide +kernel, by decide +kernel⟩,
      by decide +kernel⟩,
    fun _ => ⟨by decide +kernel, by decide +kernel, by decide +kernel⟩⟩

theorem richW_good : FbGood richW := ⟨by decide +kernel, richW_fits, richW_sound, by decide, by decide⟩

theorem richL_fits : Fits richL :=
  ⟨richB_fits.n, richB_fits.fp, richB_fits.fb, richB_fits.dv, richB_fits.ep, richB_fits.eb,
    richB_fits.rc, ⟨richB_fits.ctx.vec, richB_fits.ctx.fpU, richB_fits.ctx.rr, richB_fits.ctx.terms⟩⟩

theorem richL_good : FbGood richL :=
  ⟨by decide +kernel, richL_fits, fun _ => ⟨fun _ => by
      have h := (richB_sound rfl).1 rfl
      exact ⟨⟨h.1.odd, h.1.len, h.1.count, h.1.falling, h.1.sum, h.1.curve⟩,
        ⟨h.2.1.u, h.2.1.one, h.2.1.rr⟩, h.2.2⟩,
    fun _ => by
      have h := (richB_sound rfl).2 rfl
      exact ⟨h.shape, h.curve, h.koblitz⟩⟩, by decide, by decide⟩

theorem richH_fits : Fits richH :=
  ⟨richB_fits.n, richB_fits.fp, richB_fits.fb, richB_fits.dv, richB_fits.ep, richB_fits.eb,
    richB_fits.rc, ⟨richB_fits.ctx.vec, richB_fits.ctx.fpU, richB_fits.ctx.rr, richB_fits.ctx.terms⟩⟩

theorem richH_good : FbGood richH :=
  ⟨by decide +kernel, richH_fits, fun _ => ⟨fun _ => by
      have h := (richB_sound rfl).1 rfl
      exact ⟨⟨h.1.odd, h.1.len, h.1.count, h.1.falling, h.1.sum, h.1.curve⟩,
        ⟨h.2.1.u, h.2.1.one, h.2.1.rr⟩, h.2.2⟩,
    fun _ => by
      have h := (richB_sound rfl).2 rfl
      exact ⟨h.shape, h.curve, h.koblitz⟩⟩, by decide, by decide⟩

theorem richE_fits : Fits richE :=
  fits_of _ (by decide +kernel) (by intro v; cases v <;> decide +kernel) (by decide +kernel)

theorem richE_sound : CtxSound richE := fun _ =>
  ⟨fun _ => ⟨⟨by decide +kernel, by decide +kernel, by decide +kernel, by decide +kernel,
      by decide +kernel, by decide +kernel⟩, ⟨by decide +kernel, by decide +kernel, by decide +kernel⟩,
      by decide +kernel⟩,
    fun _ => ⟨by decide +kernel, by decide +kernel, by decide +kernel⟩⟩

theorem richE_good : FbGood richE := ⟨by decide +kernel, richE_fits, richE_sound, by decide, by decide⟩

theorem richEB_fits : Fits richEB :=
  ⟨richE_fits.n, richE_fits.fp, richE_fits.fb, richE_fits.dv, richE_fits.ep, richE_fits.eb,
    richE_fits.rc, ⟨richE_fits.ctx.vec, richE_fits.ctx.fpU, richE_fits.ctx.rr, richE_fits.ctx.terms⟩⟩

theorem richEB_good : FbGood richEB :=
  ⟨by decide +kernel, richEB_fits, fun _ => ⟨fun _ => by
      have h := (richE_sound rfl).1 rfl
      exact ⟨⟨h.1.odd, h.1.len, h.1.count, h.1.falling, h.1.sum, h.1.curve⟩,
        ⟨h.2.1.u, h.2.1.one, h.2.1.rr⟩, h.2.2⟩,
    fun _ => by
      have h := (richE_sound rfl).2 rfl
      exact ⟨h.shape, h.curve, h.koblitz⟩⟩, by decide, by decide⟩

theorem rich_status : StatusOk rich :=
  ⟨by decide, by decide, by decide, fun _ h => by simp [rich, toy, before, State.reset, State.resetOf] at h, by decide, by decide, by decide⟩

theorem toy_prime : Nat.Prime rich.ctx.fpP := by
  show Nat.Prime 65521
  norm_num

/-- `FieldPoly` from a search for the inverses. -/
theorem fieldPoly_of (m f : Nat) (lo : 2 ^ m ≤ f ∧ f < 2 ^ (m + 1))
    (h : ∀ a : Fin (2 ^ m), 0 < a.val → ∃ x : Fin (2 ^ m), fbMulP m f a.val x.val = 1) : FieldPoly m f :=
  ⟨lo.1, lo.2, fun a h0 ha => let ⟨x, hx⟩ := h ⟨a, ha⟩ h0; ⟨x.val, x.isLt, hx⟩⟩

theorem richB_field : FieldPoly richB.build.m (fbPoly richB) :=
  fieldPoly_of _ _ (by decide +kernel) (by decide +kernel)

theorem richE_field : FieldPoly richE.build.m (fbPoly richE) :=
  fieldPoly_of _ _ (by decide +kernel) (by decide +kernel)

theorem richB_true : EbTrue richB :=
  ⟨richB_field, by decide, by decide, by decide +kernel, by decide +kernel, by decide +kernel,
    hasOrder_of (by decide +kernel), by decide +kernel⟩

theorem richN_true : EbTrue richN :=
  ⟨richB_field, by decide, by decide, by decide +kernel, by decide +kernel, by decide +kernel,
    hasOrder_of (by decide +kernel), by decide +kernel⟩

/-- The same context in a build that multiplies by halving. -/
theorem richH_true : EbTrue richH :=
  ⟨richB_true.field, richB_true.b, richB_true.ordinary, richB_true.koblitz, richB_true.mu,
    richB_true.generator, richB_true.order, richB_true.count⟩

/-- Every integer stands for a polynomial. -/
theorem isPoly_exists (a : Nat) : ∃ P, IsPoly a P := by
  refine ⟨∑ i ∈ Finset.range (a + 1), Polynomial.monomial i (if a.testBit i then 1 else 0), fun j => ?_⟩
  rw [Polynomial.finsetSum_coeff]
  simp only [Polynomial.coeff_monomial, Finset.sum_ite_eq', Finset.mem_range]
  by_cases h : j < a + 1
  · simp [h]
  · have : a.testBit j = false := Nat.testBit_lt_two_pow (lt_trans (by omega) Nat.lt_two_pow_self)
    simp [h, this]

/-- Whether a point is on the small curve. -/
def tinyOn : Pt → Bool
  | .inf => true
  | .aff x y => decide (x < 2 ^ richB.build.m) && decide (y < 2 ^ richB.build.m) &&
    ebOnCurve richB.build.m (fbPoly richB) richB.ctx.eb.a richB.ctx.eb.b x y 1
  | .unknown => true

/-- The multiples of (2, 5) on the small curve. -/
def tinyPoint (j : ZMod 14) : Pt := mulBasic richB.ebOps j.val (.aff 2 5)

theorem tiny_group : EbGroup richB (ZMod 14) tinyPoint where
  image := ⟨by decide +kernel, by decide +kernel, by decide +kernel, by decide +kernel⟩
  inj := by
    have h : ∀ P Q : ZMod 14, tinyPoint P = tinyPoint Q → P = Q := by decide +kernel
    exact fun P Q => h P Q
  curve := by
    have h : ∀ P : ZMod 14, tinyOn (tinyPoint P) = true := by decide +kernel
    intro P x y hp
    have := h P
    rw [hp] at this
    simpa [tinyOn, and_assoc] using this

theorem richW_true : EbTrue richW :=
  ⟨fieldPoly_of _ _ (by decide +kernel) (by decide +kernel), by decide, by decide, by decide +kernel,
    by decide +kernel, by decide +kernel, hasOrder_of (by decide +kernel), by decide +kernel⟩

/-- The multiples of the point of order 15. -/
def widePoint (j : ZMod 15) : Pt := mulBasic richW.ebOps j.val (.aff 3 0)

/-- Whether a point is on the curve of order 30. -/
def wideOn : Pt → Bool
  | .inf => true
  | .aff x y => decide (x < 2 ^ richW.build.m) && decide (y < 2 ^ richW.build.m) &&
    ebOnCurve richW.build.m (fbPoly richW) richW.ctx.eb.a richW.ctx.eb.b x y 1
  | .unknown => true

theorem wide_group : EbGroup richW (ZMod 15) widePoint where
  image := ⟨by decide +kernel, by decide +kernel, by decide +kernel, by decide +kernel⟩
  inj := by
    have h : ∀ P Q : ZMod 15, widePoint P = widePoint Q → P = Q := by decide +kernel
    exact fun P Q => h P Q
  curve := by
    have h : ∀ P : ZMod 15, wideOn (widePoint P) = true := by decide +kernel
    intro P x y hp
    have := h P
    rw [hp] at this
    simpa [wideOn, and_assoc] using this

/-- The same group in a build that multiplies by halving. -/
theorem halve_group : EbGroup richH (ZMod 14) tinyPoint :=
  ⟨⟨tiny_group.image.zero, tiny_group.image.neg, tiny_group.image.add, tiny_group.image.dbl⟩,
    tiny_group.inj, tiny_group.curve⟩


theorem fits_presented {s : State} (h : Fits s) (t : Txn) : Fits (presented t s) :=
  ⟨h.n, h.fp, h.fb, h.dv, h.ep, h.eb, h.rc, h.ctx⟩

theorem sound_presented {s : State} (h : CtxSound s) (t : Txn) : CtxSound (presented t s) := h

theorem status_presented {s : State} (h : StatusOk s) (t : Txn) : StatusOk (presented t s) :=
  ⟨h.notBoth, h.busy, h.errf, h.kind, h.op, h.opNone, h.held⟩

/-- A step that takes a read of `STATUS`. -/
theorem step_reads (s : State) (h : s.running = none) (hh : s.held = []) :
    ∃ t, step (presented (.read statusAddr) s) = .next t := by
  refine ⟨hostRead statusAddr { s with inbox := [] }, ?_⟩
  simp [step, presented, h, hh, transact]

/-- A command of the rich state in progress. -/
def busy : State := { rich with running := some 0, status := ⟨true, false, false, true⟩ }

theorem witness_EncodeOfDecode : decode 0x45201000 = .ok (.fpMul 2 0 1) := by decide +kernel

theorem witness_StepRunsIssuedCommand :
    (Takes (presented (.write cmdAddr (0x45201000 : Word).toNat) rich)
        (.write cmdAddr (0x45201000 : Word).toNat) rich ∧
      rich.status.errf = false ∧ decode 0x45201000 = .ok (.fpMul 2 0 1)) ∧
    (Takes (waiting (.write cmdAddr (0x02000000 : Word).toNat) (hostFault .invalidInput rich))
        (.write cmdAddr (0x02000000 : Word).toNat) (hostFault .invalidInput rich) ∧
      opOf 0x02000000 = 2 ∧ (hostFault .invalidInput rich).status.errf = true ∧
      decode 0x02000000 = .ok .clrerr) ∧
    Quiet rich ∧ Quiet { rich with inbox := [.pause, .present .reset] } ∧
    busy.running = some 0 ∧ Quiet busy ∧ decode 0 = .ok .nop :=
  ⟨⟨takes_presented _ _ rfl rfl, by decide +kernel⟩, ⟨takes_waiting _ _ rfl rfl, by decide +kernel⟩,
    by decide +kernel⟩

theorem witness_BadEncodingsFault :
    (Takes (presented (.write cmdAddr (0xA0000000 : Word).toNat) rich)
        (.write cmdAddr (0xA0000000 : Word).toNat) rich ∧
      rich.status.errf = false ∧ decode 0xA0000000 = .error .badOp ∧
      Quiet rich ∧ Quiet { rich with inbox := [.pause] }) ∧
    (opOf 0x02000001 = 2 ∧ decode 0x02000001 = .error .notZero) ∧
    ({ busy with running := some 0xA0000000 }.running = some 0xA0000000 ∧
      Quiet { busy with running := some 0xA0000000, inbox := [.pause] }) ∧
    (Instr.dvZero 9 0).wf = false :=
  ⟨⟨takes_presented _ _ rfl rfl, by decide +kernel⟩, by decide +kernel⟩

theorem witness_ErrorStateDropsCommands :
    Takes (presented (.write cmdAddr (0x01000000 : Word).toNat) (hostFault .invalidInput rich))
      (.write cmdAddr (0x01000000 : Word).toNat) (hostFault .invalidInput rich) ∧
    (hostFault .invalidInput rich).status.errf = true ∧ opOf 0x01000000 ≠ 2 ∧ opOf 0x03000000 ≠ 2 :=
  ⟨takes_presented _ _ rfl rfl, by decide +kernel⟩

theorem busy_status : StatusOk busy :=
  ⟨by decide, by decide, by decide, fun _ h => (by cases h), by decide, by decide, by decide⟩

theorem witness_TransactionsWhileBusy :
    (StatusOk (presented (.read statusAddr) busy) ∧ busy.running = some 0) ∧
    ((presented (.read ⟨0, 0, 0, 2⟩) busy).inbox = [.present (.read ⟨0, 0, 0, 2⟩)] ∧
      Txn.read ⟨0, 0, 0, 2⟩ ≠ .reset ∧ Txn.read ⟨0, 0, 0, 2⟩ ≠ .read statusAddr) ∧
    (Quiet busy ∧ Quiet { busy with inbox := [.pause, .present .reset] }) ∧
    Takes (waiting (.read statusAddr) rich) (.read statusAddr) rich ∧
    Takes (presented (.read statusAddr) rich) (.read statusAddr) rich :=
  ⟨⟨status_presented busy_status _, rfl⟩, by decide, by decide, takes_waiting _ _ rfl rfl,
    takes_presented _ _ rfl rfl⟩

theorem witness_ResetState :
    ((presented .reset (waiting (.read statusAddr) busy)).inbox = [.present .reset] ∧
      busy.running ≠ none) ∧
    (presented .reset rich).running = none ∧ (presented .reset rich).held = [] :=
  ⟨⟨rfl, by decide⟩, rfl, rfl⟩

theorem witness_StepKeepsWidths : Fits (presented (.read statusAddr) rich) ∧
    ∃ t, step (presented (.read statusAddr) rich) = .next t :=
  ⟨fits_presented rich_fits _, step_reads rich rfl rfl⟩

theorem witness_StepKeepsStatus : StatusOk (presented (.read statusAddr) rich) ∧
    ∃ t, step (presented (.read statusAddr) rich) = .next t :=
  ⟨status_presented rich_status _, step_reads rich rfl rfl⟩

theorem witness_StepKeepsContext : (Fits (presented (.read statusAddr) rich) ∧
    CtxSound (presented (.read statusAddr) rich)) ∧ rich.status.init = true ∧
    ∃ t, step (presented (.read statusAddr) rich) = .next t :=
  ⟨⟨fits_presented rich_fits _, sound_presented rich_sound _⟩, rfl, step_reads rich rfl rfl⟩

theorem witness_ContextIsLocked : (presented (.read statusAddr) rich).status.init = true ∧
    (∀ a ∈ (presented (.read statusAddr) rich).inbox, a ≠ .present .reset) ∧
    (∀ x ∈ (presented (.read statusAddr) rich).held, x ≠ .reset) ∧
    ∃ t, step (presented (.read statusAddr) rich) = .next t :=
  ⟨rfl, by decide, by decide, step_reads rich rfl rfl⟩

/-- The stop of `CommandsNeverStop`: 256 is the least value wider than a digit of eight bits. -/
theorem test_value_wider_than_location :
    step (presented (.write ⟨5, 3, 0, 1⟩ 256) rich) = .fault .valueWiderThanLocation ∧
    ∃ t, step (presented (.write ⟨5, 3, 0, 1⟩ 255) rich) = .next t := ⟨rfl, _, rfl⟩

/-- 93 U10: in a false context the results come from the tape, 17, 17, 13 and (1, 2, 3). -/
theorem test_false_context_is_drawn :
    (after (exec (.fpAdd 3 2 2) falseP)).fp[3] = 17 ∧ (after (exec (.fpMuln 3 2 2) falseP)).dv[3] = 17 ∧
    (after (exec (.fpCmp 1 2) falseP)).flags.cmp = .greater ∧
    (after (exec (.fbMul 3 0 0) falseF)).fb[3] = 13 ∧
    (after (exec (.epNeg 3 1) falseE)).ep[3] = ⟨1, 2, 3, false⟩ ∧
    (after (exec (.ebNeg 3 1) falseB)).eb[3] = ⟨1, 2, 3, false⟩ := by decide +kernel

/-- In a true context the results are computed: 22 + 5 = 4 mod 23, z·z = z², −G and −(2, 5) = (2, 7). -/
theorem test_true_context_is_computed :
    (after (exec (.fpAdd 3 0 2) richP)).fp[3] = 4 ∧
    (after (exec (.fbMul 3 2 2) richB)).fb[3] = 4 ∧
    (after (exec (.epNeg 3 1) richP)).ep[3] = ⟨15, 11, 3, true⟩ ∧
    (after (exec (.ebNeg 3 1) richB)).eb[3] = ⟨2, 7, 1, true⟩ := by decide +kernel

/-- `FaultsArePrecise`, `FlagsAreResultsOnly` and `StickyBits`: a command that completes and one that
faults, which leaves the flags; the five commands that write a flag complete. -/
theorem witness_FlagsAreResultsOnly : exec .nop rich = .next (finish rich) ∧
    (∃ t, exec (.fpInv 2 1) rich = .next t ∧ t.status.done = false) ∧
    (∀ sp ra rb, Instr.nop ≠ .dvCmp sp ra rb) ∧ (∀ ra rb, Instr.nop ≠ .fpCmp ra rb) ∧
    (∀ ra rb, Instr.nop ≠ .fbCmp ra rb) ∧ (∀ ra, Instr.nop ≠ .fbTrc ra) ∧
    (∀ rd ra, Instr.nop ≠ .fpSrt rd ra) ∧
    ∀ i ∈ [Instr.dvCmp 2 0 0, .fpCmp 0 2, .fbCmp 0 2, .fbTrc 2, .fpSrt 1 0],
      ∃ t, exec i richP = .next t ∧ t.status.done = true := by
  refine ⟨rfl, ⟨after (exec (.fpInv 2 1) rich), ?_, by decide +kernel⟩, by simp, by simp, by simp, by simp,
    by simp, fun i hi => ?_⟩
  · rfl
  · simp only [List.mem_cons, List.not_mem_nil, or_false] at hi
    rcases hi with rfl | rfl | rfl | rfl | rfl
    all_goals exact ⟨_, rfl, by decide +kernel⟩

theorem witness_FaultsArePrecise : exec .nop rich = .next (finish rich) := rfl

theorem witness_StickyBits : Instr.nop ≠ .ctxInit ∧ Instr.nop ≠ .clrerr ∧
    (hostFault .invalidInput rich).status.errf = true ∧
    exec .nop (hostFault .invalidInput rich) = .next (finish (hostFault .invalidInput rich)) :=
  ⟨by simp, by simp, rfl, rfl⟩

theorem witness_UnitsNeedContext :
    ((Instr.fpAdd 0 0 0).wf = true ∧ opOf (encode (.fpAdd 0 0 0)) / 16 = 4 ∧
      State.reset.status.init = false ∧ noFp.build.hasFp = false) ∧
    ((Instr.epNeg 0 0).wf = true ∧ opOf (encode (.epNeg 0 0)) / 16 = 6) ∧
    ((Instr.epMul 0 0 0).wf = true ∧ opOf (encode (.epMul 0 0 0)) / 16 = 7) ∧
    ((Instr.fbInvSim 15 15 0).wf = true ∧ opOf (encode (.fbInvSim 15 15 0)) / 16 = 5 ∧
      noFb.build.hasFb = false) ∧
    ((Instr.ebHlv 0 0).wf = true ∧ opOf (encode (.ebHlv 0 0)) / 16 = 8) ∧
    ((Instr.ebSim 0 0 0 0 0).wf = true ∧ opOf (encode (.ebSim 0 0 0 0 0)) / 16 = 9) ∧
    (Instr.recTnaf 0 0 8).wf = true ∧ opOf (encode (.recTnaf 0 0 8)) = 0x32 := by decide +kernel

theorem witness_HostWriteReplacesOneLocation :
    Fits (presented (.write ⟨5, 15, 0, 1⟩ 255) rich) ∧
    (Takes (presented (.write ⟨5, 15, 0, 1⟩ 255) rich) (.write ⟨5, 15, 0, 1⟩ 255) rich ∧
      locate rich.build ⟨5, 15, 0, 1⟩ = some (.fp 15 1) ∧
      (Loc.fp 15 1).access = .readWrite ∧ 255 < 2 ^ (Loc.fp 15 1).width rich.build) ∧
    (before.status.init = false ∧ locate before.build ⟨1, 0, 0, 1⟩ = some (.ctxDigit .fpP 1) ∧
      (Loc.ctxDigit .fpP 1).access = .untilInit ∧ 255 < 2 ^ (Loc.ctxDigit .fpP 1).width before.build) ∧
    locate rich.build ⟨3, 0, 0, 0⟩ = some (.nDigit 0 0) ∧
    Loc.nDigit 0 0 ≠ .fp 15 1 ∧ ∀ r i, ¬(Loc.fp 15 1 = .nDigit r i ∧ Loc.nDigit 0 0 = .nUsed r) :=
  ⟨fits_presented rich_fits _, ⟨takes_presented _ _ rfl rfl, by decide +kernel⟩, by decide +kernel,
    by decide +kernel, by simp, by simp⟩

theorem witness_HostReadChangesNothing :
    Takes (waiting (.read ⟨7, 15, 2, 1⟩) rich) (.read ⟨7, 15, 2, 1⟩) rich ∧
    locate rich.build ⟨7, 15, 2, 1⟩ = some (.epDigit 15 .z 1) ∧
    locate rich.build ⟨0, 0, 0, 1⟩ = some .status := ⟨takes_waiting _ _ rfl rfl, by decide +kernel⟩

theorem witness_BadAccessesFault :
    (Takes (presented (.read ⟨5, 15, 0, 2⟩) rich) (.read ⟨5, 15, 0, 2⟩) rich ∧
      locate rich.build ⟨5, 15, 0, 2⟩ = none ∧ locate rich.build ⟨15, 15, 3, 4095⟩ = none) ∧
    (Takes (presented (.write ⟨0, 0, 0, 1⟩ (2 ^ 32 - 1)) rich) (.write ⟨0, 0, 0, 1⟩ (2 ^ 32 - 1)) rich ∧
      locate rich.build ⟨0, 0, 0, 1⟩ = some .status ∧ Loc.status.access = .readOnly ∧
      2 ^ 32 - 1 < 2 ^ Loc.status.width rich.build) ∧
    Takes (presented (.write ⟨1, 0, 0, 0⟩ 255) rich) (.write ⟨1, 0, 0, 0⟩ 255) rich ∧
    locate rich.build ⟨1, 0, 0, 0⟩ = some (.ctxDigit .fpP 0) ∧ (Loc.ctxDigit .fpP 0).access = .untilInit ∧
    255 < 2 ^ (Loc.ctxDigit .fpP 0).width rich.build ∧ rich.status.init = true :=
  ⟨⟨takes_presented _ _ rfl rfl, by decide +kernel⟩, ⟨takes_presented _ _ rfl rfl, by decide +kernel⟩,
    takes_presented _ _ rfl rfl, by decide +kernel⟩

theorem witness_CtxInit :
    (before.status.init = false ∧ before.build.fpRdc ≠ .sparse ∧
      FpStaged before.build before.ctx ∧ FbStaged before.build before.ctx) ∧
    ({ richS with status := ⟨false, false, false, false⟩ }.build.fpRdc = .sparse ∧
      richS.ctx.sfCnt ≠ 0 ∧ FpStaged richS.build richS.ctx ∧ FbStaged richS.build richS.ctx) ∧
    rich.status.init = true ∧
    ({ State.reset with build := Build.toyS }.build.hasFp = true ∧
      { State.reset with build := Build.toyS }.ctx.sfCnt = 0) ∧
    (State.reset.status.init = false ∧ State.reset.build.hasFp = true ∧
      State.reset.build.fpRdc ≠ .sparse ∧ ¬FpStaged State.reset.build State.reset.ctx ∧
      ¬FbStaged State.reset.build State.reset.ctx) := by
  refine ⟨⟨by decide, by decide, ?_, ?_⟩, ⟨by decide, by decide, ?_, ?_⟩, by decide, by decide, by decide,
    by decide, by decide, fun h => ?_, fun h => ?_⟩
  · exact ⟨by decide +kernel, by decide +kernel, by decide +kernel, by decide +kernel, by decide +kernel,
      by decide +kernel⟩
  · exact ⟨by decide +kernel, by decide +kernel, by decide +kernel⟩
  · exact (richS_sound rfl).1 rfl |>.1
  · exact (richS_sound rfl).2 rfl
  · exact absurd h.odd (by decide +kernel)
  · exact absurd h.shape (by decide +kernel)

theorem witness_DvZeroAndCopy : rich.build.hasFp = true ∧ rich.build.hasFb = true ∧
    noFp.build.hasFp = false ∧ noFb.build.hasFb = false := by decide

theorem witness_CompareCommands : rich.build.hasFp = true ∧ rich.build.hasFb = true ∧
    noFp.build.hasFp = false ∧ noFb.build.hasFb = false ∧
    (Nat.Prime rich.ctx.fpP ∧ FieldPoly richB.build.m (fbPoly richB)) ∧
    fpReady rich = true ∧ rich.fp[(0 : Reg)] < rich.ctx.fpP ∧ rich.fp[(1 : Reg)] < rich.ctx.fpP ∧
    fbReady richB = true ∧ richB.fb[(0 : Reg)] < 2 ^ richB.build.m ∧
    richB.fb[(1 : Reg)] < 2 ^ richB.build.m :=
  ⟨by decide, by decide, by decide, by decide, ⟨toy_prime, richB_field⟩, by decide +kernel⟩

theorem witness_BnExactResults :
    (∃ x ∈ [rich.n[(6 : Reg)], rich.n[(0 : Reg)]], x = ⟨true, 0⟩) ∧
    ((∀ x ∈ [rich.n[(7 : Reg)], rich.n[(7 : Reg)]], x ≠ ⟨true, 0⟩) ∧
      2 ^ (rich.build.W * rich.build.bnDigs) ≤ (rich.n[(7 : Reg)].val + rich.n[(7 : Reg)].val).natAbs) ∧
    (∀ x ∈ [rich.n[(0 : Reg)], rich.n[(4 : Reg)]], x ≠ ⟨true, 0⟩) ∧
    (rich.n[(0 : Reg)].val + rich.n[(4 : Reg)].val).natAbs < 2 ^ (rich.build.W * rich.build.bnDigs) := by
  decide +kernel

theorem witness_BnDivision : Fits rich ∧ rich.n[(2 : Reg)] ≠ ⟨true, 0⟩ ∧ rich.n[(0 : Reg)] ≠ ⟨true, 0⟩ ∧
    rich.n[(4 : Reg)] ≠ ⟨true, 0⟩ ∧ rich.n[(4 : Reg)].val = 0 ∧ rich.n[(0 : Reg)].val ≠ 0 ∧
    (14 : Reg) ≠ 15 :=
  ⟨rich_fits, by decide +kernel⟩

theorem witness_BnGcdAndShifts : Fits rich ∧ rich.n[(1 : Reg)] ≠ ⟨true, 0⟩ ∧ rich.n[(5 : Reg)] ≠ ⟨true, 0⟩ ∧
    rich.n[(1 : Reg)].mag * 2 ^ (63 : BitVec 16).toNat < 2 ^ (rich.build.W * rich.build.bnDigs) ∧
    2 ^ (rich.build.W * rich.build.bnDigs) ≤ rich.n[(1 : Reg)].mag * 2 ^ (64 : BitVec 16).toNat :=
  ⟨rich_fits, by decide +kernel⟩

theorem witness_NafProperties : rich.build.wf = true ∧ Fits rich ∧ rich.n[(0 : Reg)].sign = false ∧
    2 ≤ (2 : Nib).val ∧ (8 : Nib).val ≤ 8 ∧ rich.n[(4 : Reg)] = ⟨false, 0⟩ :=
  ⟨by decide +kernel, rich_fits, by decide⟩

theorem witness_JsfProperties : rich.build.wf = true ∧ Fits rich ∧ rich.n[(0 : Reg)].sign = false ∧
    rich.n[(3 : Reg)].sign = false ∧ (14 : Reg).val % 2 = 0 ∧
    rich.n[(4 : Reg)] = ⟨false, 0⟩ := ⟨by decide +kernel, rich_fits, by decide⟩

theorem witness_WinProperties : rich.build.wf = true ∧ Fits rich ∧ rich.n[(0 : Reg)].sign = false ∧
    1 ≤ (1 : Nib).val ∧ (8 : Nib).val ≤ 8 := ⟨by decide +kernel, rich_fits, by decide⟩

/-- φ is multiplication by 11 on the small curve. -/
theorem tiny_frobenius (P : ZMod 14) :
    richB.frob (tinyPoint P) = tinyPoint (AddMonoidHom.mulLeft 11 P) := by
  have h : ∀ P : ZMod 14, richB.frob (tinyPoint P) = tinyPoint (11 * P) := by decide +kernel
  exact h P

theorem witness_TnafQualifies : FbGood richB ∧ EbTrue richB ∧ EbGroup richB (ZMod 14) tinyPoint ∧
    (∀ P, richB.frob (tinyPoint P) = tinyPoint (AddMonoidHom.mulLeft 11 P)) ∧
    tinyPoint 12 = .aff richB.ctx.eb.gx richB.ctx.eb.gy ∧ 2 ≤ richB.ctx.eb.n ∧
    richB.ctx.ebFlags.kbltz = true ∧
    richB.n[(2 : Reg)].sign = false ∧ richB.n[(2 : Reg)].mag = 1 ∧
    Qualifies richB 2 richB.n[(2 : Reg)].mag [1] ∧ Qualifies richB 8 richB.n[(2 : Reg)].mag [1] := by
  have h : ∀ i j w, i < j → j < i + w → ([1] : List Int).getD i 0 = 0 ∨ ([1] : List Int).getD j 0 = 0 := by
    intro i j w hij _
    right
    obtain ⟨k, rfl⟩ : ∃ k, j = k + 1 := ⟨j - 1, by omega⟩
    rfl
  exact ⟨richB_good, richB_true, tiny_group, tiny_frobenius, by decide +kernel, by decide, by decide, by decide, by decide,
    ⟨by decide +kernel, by decide +kernel, fun i j => h i j _, by decide +kernel⟩,
    ⟨by decide +kernel, by decide +kernel, fun i j => h i j _, by decide +kernel⟩⟩

theorem witness_RecodingFaults : (2 ≤ (2 : Nib).val ∧ (8 : Nib).val ≤ 8) ∧
    ((1 : Nib).val < 2 ∧ 8 < (9 : Nib).val) ∧ rich.n[(2 : Reg)].sign = true ∧
    rich.n[(6 : Reg)].sign = true ∧ rich.n[(0 : Reg)].sign = false ∧
    (fbReady richB = true ∧ richB.ctx.ebFlags.kbltz = true ∧ richB.n[(1 : Reg)].sign = true) ∧
    richN.ctx.ebFlags.kbltz = false := by decide +kernel

theorem witness_CombaIsExact : 0 < 2 ∧ 2 + 1 < 2 ^ 2 ∧ 15 < 2 ^ (2 * 2) := by decide

theorem witness_MontgomeryReduction : 0 < 8 ∧ 2 + 1 < 2 ^ 8 ∧ 65521 < 2 ^ (8 * 2) ∧ 65521 % 2 = 1 ∧
    (65521 * 0xEF + 1) % 2 ^ 8 = 0 ∧ 2 ^ (8 * 2) * 65521 - 1 < 2 ^ (8 * 2) * 65521 := by decide

theorem witness_FpLinear : (FpGood rich ∧ FpGood richS ∧ Nat.Prime rich.ctx.fpP) ∧ rich.fp[(0 : Reg)] < rich.ctx.fpP ∧
    rich.fp[(1 : Reg)] < rich.ctx.fpP ∧ richS.fp[(0 : Reg)] < richS.ctx.fpP :=
  ⟨⟨rich_good, richS_good, toy_prime⟩, by decide +kernel⟩

theorem witness_FpMultiplication : Nat.Prime rich.ctx.fpP ∧ (FpGood rich ∧ rich.build.fpRdc = .monty) ∧
    (FpGood richS ∧ richS.build.fpRdc = .sparse) ∧ rich.fp[(0 : Reg)] < rich.ctx.fpP ∧
    richS.fp[(0 : Reg)] < richS.ctx.fpP :=
  ⟨toy_prime, ⟨rich_good, by decide⟩, ⟨richS_good, by decide⟩, by decide +kernel⟩

theorem witness_FpConversions : Nat.Prime rich.ctx.fpP ∧ (FpGood rich ∧ rich.build.fpRdc = .monty) ∧
    (FpGood richS ∧ richS.build.fpRdc = .sparse) ∧ rich.fp[(0 : Reg)] < rich.ctx.fpP ∧
    richS.fp[(0 : Reg)] < richS.ctx.fpP :=
  ⟨toy_prime, ⟨rich_good, by decide⟩, ⟨richS_good, by decide⟩, by decide +kernel⟩

theorem witness_CommandsKeepCanonical : richP.build.wf = true ∧ Fits richP ∧ CtxSound richP ∧
    richP.status.init = true ∧ Canonical richP ∧ ∃ t, exec (.epAdd 3 1 2) richP = .next t :=
  ⟨by decide +kernel, richP_fits, richP_sound, rfl, richP_canonical, after (exec (.epAdd 3 1 2) richP), rfl⟩

theorem witness_FpInversion : FpGood rich ∧ Nat.Prime rich.ctx.fpP ∧ rich.fp[(0 : Reg)] < rich.ctx.fpP ∧
    rich.fp[(0 : Reg)] ≠ 0 ∧ rich.fp[(1 : Reg)] < rich.ctx.fpP ∧ rich.fp[(1 : Reg)] = 0 :=
  ⟨rich_good, toy_prime, by decide +kernel⟩

theorem witness_FpExponentiation : FpGood rich ∧ Nat.Prime rich.ctx.fpP ∧
    rich.fp[(0 : Reg)] < rich.ctx.fpP ∧ rich.build.expMonty = true ∧
    (rich.n[(4 : Reg)] ≠ ⟨true, 0⟩ ∧ 0 ≤ rich.n[(4 : Reg)].val) ∧
    (rich.n[(2 : Reg)] ≠ ⟨true, 0⟩ ∧ rich.n[(2 : Reg)].val < 0) ∧
    rich.fp[(0 : Reg)] ≠ 0 ∧ rich.fp[(1 : Reg)] = 0 := ⟨rich_good, toy_prime, by decide +kernel⟩

theorem witness_FpSquareRoot : FpGood rich ∧ Nat.Prime rich.ctx.fpP ∧ rich.fp[(2 : Reg)] < rich.ctx.fpP ∧
    30 * 30 % rich.ctx.fpP = 900 ∧ rich.valFp rich.fp[(2 : Reg)] = 4 ∧ rich.fp[(3 : Reg)] < rich.ctx.fpP :=
  ⟨rich_good, toy_prime, by decide +kernel⟩

theorem witness_FpReduction : Nat.Prime rich.ctx.fpP ∧
    (FpGood rich ∧ rich.build.fpRdc = .monty ∧ rich.dv[(0 : Reg)] < bigR rich.build * rich.ctx.fpP ∧
      bigR rich.build * rich.ctx.fpP ≤ rich.dv[(1 : Reg)]) ∧
    (FpGood richM ∧ richM.ctx.sfCnt = 0) ∧ .monty ∈ rich.build.rdcSet ∧ .sparse ∈ richS.build.rdcSet ∧
    (FpGood richR ∧ .sparse ∉ richR.build.rdcSet) ∧ (FpGood richSR ∧ .monty ∉ richSR.build.rdcSet) ∧
    FpGood richS ∧ richS.build.fpRdc = .sparse ∧ richS.ctx.sfCnt ≠ 0 ∧
    richS.dv[(2 : Reg)] < bigR richS.build ^ 2 ∧ bigR richS.build ^ 2 ≤ richS.dv[(3 : Reg)] :=
  ⟨toy_prime, ⟨rich_good, by decide +kernel⟩, ⟨richM_good, by decide⟩, by decide, by decide,
    ⟨richR_good, by decide⟩, ⟨richSR_good, by decide⟩, richS_good, by decide +kernel⟩

theorem witness_FbPolynomialArithmetic : FbGood richB ∧ FieldPoly richB.build.m (fbPoly richB) ∧
    (richB.fb[(0 : Reg)] < 2 ^ richB.build.m ∧ richB.fb[(1 : Reg)] < 2 ^ richB.build.m ∧
      richB.dv[(0 : Reg)] < 2 ^ (richB.build.W * (2 * richB.build.fbDigs)) ∧
      2 ^ (richB.build.W * (2 * richB.build.fbDigs)) ≤ richB.dv[(1 : Reg)]) ∧
    ∃ A B D E F, IsPoly richB.fb[(0 : Reg)] A ∧ IsPoly richB.fb[(1 : Reg)] B ∧
      IsPoly richB.dv[(0 : Reg)] D ∧ IsPoly richB.dv[(1 : Reg)] E ∧ IsPoly (fbPoly richB) F :=
  let ⟨A, hA⟩ := isPoly_exists _
  let ⟨B, hB⟩ := isPoly_exists _
  let ⟨D, hD⟩ := isPoly_exists _
  let ⟨E, hE⟩ := isPoly_exists _
  let ⟨F, hF⟩ := isPoly_exists _
  ⟨richB_good, richB_field, by decide +kernel, A, B, D, E, F, hA, hB, hD, hE, hF⟩

theorem witness_FbRootTraceHalfTrace :
    (FbGood richB ∧ FieldPoly richB.build.m (fbPoly richB) ∧ richB.fb[(0 : Reg)] < 2 ^ richB.build.m ∧
      richB.build.m % 2 = 1 ∧ ∃ x, x < 2 ^ richB.build.m ∧ richB.mulFb x x ^^^ x = richB.fb[(1 : Reg)]) ∧
    FbGood richE ∧ FieldPoly richE.build.m (fbPoly richE) ∧ richE.fb[(0 : Reg)] < 2 ^ richE.build.m ∧
    richE.build.m % 2 = 0 :=
  ⟨⟨richB_good, richB_field, by decide +kernel, by decide, 1, by decide +kernel⟩, richE_good, richE_field,
    by decide +kernel⟩

theorem witness_FbInversion :
    (FbGood richB ∧ FieldPoly richB.build.m (fbPoly richB) ∧
      richB.fb[(0 : Reg)] < 2 ^ richB.build.m ∧ richB.build.m % 2 = 1 ∧
      (∀ v, v ∈ richB.build.fbInvSet) ∧ richB.fb[(0 : Reg)] ≠ 0 ∧ richB.fb[(1 : Reg)] = 0) ∧
    (FbGood richL ∧ .basic ∉ richL.build.fbInvSet) ∧ (FbGood richE ∧ richE.build.m % 2 = 0) ∧
    FbGood richEB ∧ richEB.build.fbInv = .basic ∧ richEB.build.m % 2 = 0 :=
  ⟨⟨richB_good, richB_field, by decide +kernel, by decide, fun v => by cases v <;> decide,
      by decide +kernel⟩, ⟨richL_good, by decide⟩, ⟨richE_good, by decide⟩, richEB_good, by decide⟩

theorem witness_FbSimultaneousInversion :
    FbGood richB ∧ FieldPoly richB.build.m (fbPoly richB) ∧
    ((14 : Reg).val + (1 : Nib).val ≤ 15 ∧ (0 : Reg).val + (15 : Nib).val ≤ 15) ∧
    (∀ j : Nib, j ≤ 1 → richB.fb[(14 : Reg) + j] < 2 ^ richB.build.m ∧ richB.fb[(14 : Reg) + j] ≠ 0) ∧
    (∀ j : Nib, j ≤ 15 → richB.fb[(0 : Reg) + j] < 2 ^ richB.build.m) ∧
    (∃ j : Nib, j ≤ 15 ∧ richB.fb[(0 : Reg) + j] = 0) ∧
    (richB.build.fbInv ≠ .basic ∧ richB.build.m % 2 = 1) ∧
    FbGood richEB ∧ richEB.build.fbInv = .basic ∧ richEB.build.m % 2 = 0 :=
  ⟨richB_good, richB_field, by decide +kernel, by decide +kernel, by decide +kernel, by decide +kernel,
    by decide +kernel, richEB_good, by decide⟩

/-- 44_fb R218: with m even `FB.INV.SIM` faults where `FB.INV` does, in a build whose `FB_INV` is `BASIC`, and
else inverts: z·(z + 1) = 1 mod z² + z + 1. -/
theorem test_sim_inversion_even_degree :
    exec (.fbInvSim 1 0 0) (richEB.putFb 0 2) = .next (takeFault .noValidConfig 0x59 (richEB.putFb 0 2)) ∧
    (after (exec (.fbInvSim 1 0 0) (richE.putFb 0 2))).fb[1] = 3 := ⟨rfl, by decide +kernel⟩

theorem witness_EpDeterminedPointCommands : FpGood richP ∧ EpTrue richP ∧
    (epCanon richP richP.ep[(1 : Reg)] = true ∧ epOn richP richP.ep[(1 : Reg)] = true ∧
      richP.ep[(1 : Reg)].z ≠ 0) ∧
    epCanon richP richP.ep[(0 : Reg)] = true ∧ epOn richP richP.ep[(0 : Reg)] = true ∧
    richP.ep[(0 : Reg)].z = 0 := ⟨richP_good, richP_true, by decide +kernel⟩

theorem witness_EpRepresentatives : FpGood richP ∧ EpTrue richP ∧
    epCanon richP richP.ep[(1 : Reg)] = true ∧ epOn richP richP.ep[(1 : Reg)] = true ∧
    epCanon richP richP.ep[(2 : Reg)] = true ∧ epOn richP richP.ep[(2 : Reg)] = true ∧
    richP.epOps.add (richP.epPt richP.ep[(1 : Reg)]) (richP.epPt richP.ep[(2 : Reg)]) = .inf ∧
    richP.epOps.dbl (richP.epPt richP.ep[(1 : Reg)]) ≠ .inf := ⟨richP_good, richP_true, by decide +kernel⟩

theorem witness_LoopsInAnyGroup : GroupImage richB.ebOps (ZMod 14) tinyPoint ∧ 1 ≤ 1 ∧ 2 ≤ 2 :=
  ⟨tiny_group.image, by decide, by decide⟩

theorem witness_EpScalarMultiplication : Fact (Nat.Prime richP.ctx.fpP) ∧ FpGood richP ∧ EpTrue richP ∧
    (epCanon richP richP.ep[(1 : Reg)] = true ∧ epOn richP richP.ep[(1 : Reg)] = true) ∧
    richP.n[(0 : Reg)] ≠ ⟨true, 0⟩ ∧ ∀ v, v ∈ richP.build.epMulSet :=
  ⟨⟨tiny_prime⟩, richP_good, richP_true, by decide +kernel, by decide +kernel,
    fun v => by cases v <;> decide⟩

theorem witness_EpTwoScalarMultiplication : Fact (Nat.Prime richP.ctx.fpP) ∧ FpGood richP ∧ EpTrue richP ∧
    (epCanon richP richP.ep[(1 : Reg)] = true ∧ epOn richP richP.ep[(1 : Reg)] = true ∧
      epCanon richP richP.ep[(2 : Reg)] = true ∧ epOn richP richP.ep[(2 : Reg)] = true) ∧
    richP.n[(0 : Reg)] ≠ ⟨true, 0⟩ ∧ richP.n[(1 : Reg)] ≠ ⟨true, 0⟩ ∧ ∀ v, v ∈ richP.build.epSimSet :=
  ⟨⟨tiny_prime⟩, richP_good, richP_true, by decide +kernel, by decide +kernel,
    by decide +kernel, fun v => by cases v <;> decide⟩

theorem witness_EbDeterminedPointCommands :
    (FbGood richB ∧ EbTrue richB ∧
      ebCanon richB richB.eb[(1 : Reg)] = true ∧ ebOn richB richB.eb[(1 : Reg)] = true ∧
      richB.eb[(1 : Reg)].z ≠ 0 ∧ richB.eb[(0 : Reg)].z = 0 ∧ richB.ctx.ebFlags.kbltz = true) ∧
    FbGood richN ∧ EbTrue richN ∧ richN.ctx.ebFlags.kbltz = false ∧
    ebCanon richN richN.eb[(1 : Reg)] = true ∧ ebOn richN richN.eb[(1 : Reg)] = true :=
  ⟨⟨richB_good, richB_true, by decide +kernel⟩, richN_good, richN_true, by decide +kernel⟩

theorem witness_EbRepresentatives : FbGood richB ∧ EbTrue richB ∧
    ebCanon richB richB.eb[(1 : Reg)] = true ∧ ebOn richB richB.eb[(1 : Reg)] = true ∧
    ebCanon richB richB.eb[(2 : Reg)] = true ∧ ebOn richB richB.eb[(2 : Reg)] = true ∧
    richB.ebOps.add (richB.ebPt richB.eb[(1 : Reg)]) (richB.ebPt richB.eb[(2 : Reg)]) ≠ .inf ∧
    richB.ebOps.dbl (richB.ebPt richB.eb[(0 : Reg)]) = .inf :=
  ⟨richB_good, richB_true, by decide +kernel⟩

theorem witness_EbHalving :
    (FbGood richB ∧ EbTrue richB ∧ EbGroup richB (ZMod 14) tinyPoint ∧ ebCanon richB richB.eb[(2 : Reg)] = true ∧
      ebOn richB richB.eb[(2 : Reg)] = true ∧ richB.ebPt richB.eb[(2 : Reg)] = tinyPoint 12 ∧
      7 < 2 ^ (richB.build.m + 2) ∧ (7 : Nat) • (12 : ZMod 14) = 0 ∧ richB.build.m % 2 = 1) ∧
    (FbGood richW ∧ EbTrue richW ∧ EbGroup richW (ZMod 15) widePoint ∧
      ebCanon richW richW.eb[(1 : Reg)] = true ∧ ebOn richW richW.eb[(1 : Reg)] = true ∧
      richW.ebPt richW.eb[(1 : Reg)] = widePoint 1 ∧ richW.n[(0 : Reg)] ≠ ⟨true, 0⟩ ∧
      15 < 2 ^ (richW.build.m + 2) ∧ (15 : Nat) • (1 : ZMod 15) = 0 ∧ richW.build.m % 2 = 1 ∧
      richW.ctx.eb.n % 2 = 1 ∧ 3 ≤ richW.ctx.eb.n ∧ EbMul.halve ∈ richW.build.ebMulSet ∧
      richW.ctx.eb.n • (1 : ZMod 15) ≠ 0) ∧
    richH.build.ebMul = .halve ∧ richE.build.m % 2 = 0 :=
  ⟨⟨richB_good, richB_true, tiny_group, by decide +kernel⟩,
    ⟨richW_good, richW_true, wide_group, by decide +kernel⟩, by decide, by decide⟩

/-- 46_eb R303 on P = (3, 0) of order 15 with n = 3 and k = 2: t = 2 and k' = 1, so the result is the Q of order 15
with [2]Q = P, which is [8]P = (23, 6), worked by hand from R280. -/
theorem test_halve_outside_the_subgroup :
    (after (exec (.ebMulHalve 2 1 0) richW)).eb[2] = ⟨23, 6, 1, true⟩ := by decide +kernel

/-- 46_eb R308, R313: `EB.SIM.BASIC` gives [6]P − [5]P = P = (2, 5), P of even order 14, also in a build that
multiplies by halving, as `EB.SIM.JOINT` does. -/
theorem test_sim_basic_of_even_order :
    (after (exec (.ebSimBasic 5 1 0 1 1) richH)).eb[5] = ⟨2, 5, 1, true⟩ ∧
    (after (exec (.ebSimJoint 5 1 0 1 1) richH)).eb[5] = ⟨2, 5, 1, true⟩ := by decide +kernel

/-- 30_encoding R96 and 92 D28: a named reduction that the build lacks takes `NoValidConfig`. -/
theorem test_absent_reduction :
    exec (.fpRdcs 2 0) richR = .next (takeFault .noValidConfig 0x4E richR) ∧
    exec (.fpRdcn 2 0) richSR = .next (takeFault .noValidConfig 0x4E richSR) := ⟨rfl, rfl⟩

theorem witness_EbLadder : FbGood richB ∧ EbTrue richB ∧ EbGroup richB (ZMod 14) tinyPoint ∧
    ebCanon richB richB.eb[(1 : Reg)] = true ∧ ebOn richB richB.eb[(1 : Reg)] = true ∧
    richB.ebPt richB.eb[(1 : Reg)] = tinyPoint 1 ∧ richB.n[(1 : Reg)] ≠ ⟨true, 0⟩ ∧
    EbMul.lodah ∈ richB.build.ebMulSet ∧ richB.build.ebMul = .lodah :=
  ⟨richB_good, richB_true, tiny_group, by decide +kernel⟩

theorem witness_EbScalarMultiplication : FbGood richB ∧ EbTrue richB ∧ EbGroup richB (ZMod 14) tinyPoint ∧
    (ebCanon richB richB.eb[(2 : Reg)] = true ∧ ebOn richB richB.eb[(2 : Reg)] = true ∧
      richB.ebPt richB.eb[(2 : Reg)] = tinyPoint 12 ∧ richB.n[(1 : Reg)] ≠ ⟨true, 0⟩) ∧
    (∀ v, v ∈ richB.build.ebMulSet) ∧ (richB.build.mixedStrip = false ∧ 3 ≤ richB.build.ebWidth ∧
      richB.build.ebWidth ≤ 6) ∧ (richB.build.m % 2 = 1 ∧ richB.ctx.eb.n % 2 = 1 ∧ 3 ≤ richB.ctx.eb.n) ∧
    richB.ctx.eb.n • (12 : ZMod 14) = 0 :=
  ⟨richB_good, richB_true, tiny_group, by decide +kernel, fun v => by cases v <;> decide, by decide +kernel⟩

theorem witness_EbTwoScalarMultiplication :
    (FbGood richB ∧ EbTrue richB ∧ EbGroup richB (ZMod 14) tinyPoint ∧
      (ebCanon richB richB.eb[(2 : Reg)] = true ∧ ebOn richB richB.eb[(2 : Reg)] = true ∧
        richB.ebPt richB.eb[(2 : Reg)] = tinyPoint 12 ∧ richB.n[(1 : Reg)] ≠ ⟨true, 0⟩ ∧
        richB.n[(0 : Reg)] ≠ ⟨true, 0⟩) ∧
      SimNeedsOrder richB .inter ∧ richB.ctx.eb.n • (12 : ZMod 14) = 0 ∧
      (∀ v, v ∈ richB.build.ebSimSet) ∧ richB.build.ebSim = .inter) ∧
    (ebCanon richB richB.eb[(1 : Reg)] = true ∧ ebOn richB richB.eb[(1 : Reg)] = true ∧
      richB.ebPt richB.eb[(1 : Reg)] = tinyPoint 1 ∧ richB.ctx.eb.n • (1 : ZMod 14) ≠ 0 ∧
      ¬SimNeedsOrder richB .basic ∧ ¬SimNeedsOrder richB .trick ∧ ¬SimNeedsOrder richB .joint) ∧
    FbGood richH ∧ EbTrue richH ∧ EbGroup richH (ZMod 14) tinyPoint ∧ ¬SimNeedsOrder richH .basic ∧
      ebCanon richH richH.eb[(1 : Reg)] = true ∧ ebOn richH richH.eb[(1 : Reg)] = true ∧
      richH.ebPt richH.eb[(1 : Reg)] = tinyPoint 1 ∧ richH.ctx.eb.n • (1 : ZMod 14) ≠ 0 :=
  ⟨⟨richB_good, richB_true, tiny_group, by decide +kernel, by unfold SimNeedsOrder; decide, by decide +kernel,
      fun v => by cases v <;> decide, by decide⟩,
    ⟨by decide +kernel, by decide +kernel, by decide +kernel, by decide +kernel,
      fun h => h, fun h => h, fun h => h⟩,
    richH_good, richH_true, halve_group, by
      have h : ebSimMul richH = .basic := by decide +kernel
      simp [SimNeedsOrder, h, NeedsOrder], by decide +kernel⟩

theorem witness_CurveCommandFaults :
    (6 ≤ opOf (encode (.epNeg 0 0)) / 16 ∧ opOf (encode (.ebSimJoint 0 1 2 3 4)) / 16 ≤ 9) ∧
    (¬ConfigOk State.reset (.epNeg 0 0) ∧ ¬ConfigOk noFp (.epSim 0 1 2 3 4) ∧
      ¬ConfigOk { richB with ctx := { richB.ctx with ebFlags := ⟨false, true, false⟩ } } (.ebNeg 0 0) ∧
      ¬ConfigOk richN (.ebFrb 0 0) ∧ ¬ConfigOk richE (.ebHlv 0 0) ∧ ¬ConfigOk richE (.ebMulHalve 0 1 2) ∧
      ¬ConfigOk richL (.ebMulBasic 0 1 2) ∧ ¬ConfigOk richL (.ebSimJoint 0 1 2 3 4) ∧
      ¬ConfigOk { richB with build := { richB.build with ebWidth := 2 } } (.ebMulRwnaf 0 1 2) ∧
      ¬ConfigOk { richE with build := { richE.build with ebMul := .halve } } (.ebMul 0 1 2)) ∧
    (ConfigOk rich (.epAdd 2 1 4) ∧ BadSource rich (.epAdd 2 1 4)) ∧
    (ConfigOk rich (.epMul 2 1 6) ∧ BadSource rich (.epMul 2 1 6)) ∧
    (ConfigOk rich (.epSim 2 1 0 3 0) ∧ OffCurveSource rich (.epSim 2 1 0 3 0)) ∧
    (ConfigOk richB (.ebFrb 2 4) ∧ BadSource richB (.ebFrb 2 4)) ∧
    (ConfigOk richB (.ebHlv 2 3) ∧ OffCurveSource richB (.ebHlv 2 3)) ∧
    ConfigOk richB (.ebMulRwnaf 2 1 3) ∧ BadSource richB (.ebMulRwnaf 2 1 3) := by
  repeat' apply And.intro
  all_goals
    try simp only [ConfigOk, FpUp, EbUp, FbUp, RwnafOk, HalveOk, MulOk, BadSource, OffCurveSource, sources]
    decide +kernel

theorem witness_ConfigurationAndSourceFaults :
    (¬ConfigOk toy .ctxInit ∧ ¬ConfigOk noFp (.dvZero 5 0) ∧ ¬ConfigOk noFb (.dvCmp 6 0 0) ∧
      ¬ConfigOk richN (.recTnaf 0 0 2) ∧ ¬ConfigOk rich (.recReg 0 0 2) ∧
      ¬ConfigOk richM (.fpRdcs 0 0) ∧ ¬ConfigOk richR (.fpRdcs 0 0) ∧ ¬ConfigOk richSR (.fpRdcn 0 0) ∧
      ¬ConfigOk richE (.fbSlv 0 0) ∧ ¬ConfigOk richEB (.fbInv 0 0) ∧ ¬ConfigOk richEB (.fbInvSim 0 0 0) ∧
      ¬ConfigOk richE (.fbInvBasic 0 0) ∧ ¬ConfigOk richL (.fbInvLower 0 0) ∧
      (Instr.recTnaf 0 0 2).wf = true ∧ (Instr.recReg 0 0 2).wf = true ∧
      (Instr.dvZero 5 0).wf = true ∧ (Instr.dvCmp 6 0 0).wf = true) ∧
    (ConfigOk rich (.bnDiv 0 1 2 6) ∧ BadSource rich (.bnDiv 0 1 2 6) ∧
      (Instr.bnDiv 0 1 2 6).wf = true) ∧
    (ConfigOk rich (.bnRsh 0 6 1) ∧ BadSource rich (.bnRsh 0 6 1)) ∧
    (ConfigOk { rich with fp := rich.fp.set 5 65521 } (.fpSub 0 0 5) ∧
      BadSource { rich with fp := rich.fp.set 5 65521 } (.fpSub 0 0 5)) ∧
    ConfigOk { richB with fb := richB.fb.set 15 8 } (.fbInvSim 0 14 1) ∧
    BadSource { richB with fb := richB.fb.set 15 8 } (.fbInvSim 0 14 1) ∧
    (Instr.fbInvSim 0 14 1).wf = true := by
  repeat' apply And.intro
  all_goals
    try simp only [ConfigOk, FpUp, FbUp, InvOk, BadSource, sources]
    try decide +kernel

end Sys2Proof.Tests
end

section
/-! PROOFS. Accesses of the operand window that store nothing and fault (20_memory R75, R78, 60_exceptions
R337). -/

namespace Sys2Proof.Proofs.Memory

open Sys2Proof.Machine

/-! The step at which a transaction takes effect (20_memory R80, R81). -/

section takes

variable {s s' : State} {x : Txn}

/-- With no command running, the step is the transaction whose turn it is. -/
theorem step_of_takes (h : Takes s x s') : step s = transact x s' := by
  obtain ⟨hrun, ⟨rest, hheld, rfl⟩ | ⟨hheld, rest, hinbox, rfl⟩⟩ := h
  · simp only [step, hrun, hheld]
  · simp only [step, hrun, hheld, hinbox]

/-- Taking a transaction off its queue leaves the build alone. -/
theorem build_of_takes (h : Takes s x s') : s'.build = s.build := by
  obtain ⟨-, ⟨_, -, rfl⟩ | ⟨-, _, -, rfl⟩⟩ := h <;> rfl

/-- Taking a transaction off its queue leaves `STATUS` alone. -/
theorem status_of_takes (h : Takes s x s') : s'.status = s.status := by
  obtain ⟨-, ⟨_, -, rfl⟩ | ⟨-, _, -, rfl⟩⟩ := h <;> rfl

/-- The host fault of the transaction that takes effect, in terms of the `STATUS` before the step
(60_exceptions R337). -/
theorem hostFault_of_takes (h : Takes s x s') (k : Kind) :
    hostFault k s' =
      { s' with status := { s.status with errf := true }, err := ⟨some k, 0⟩ } := by
  rw [hostFault, status_of_takes h]

end takes

/-! What each rejected access does. -/

section rejected

variable {s : State} {a : HAddr} {l : Loc} {v : Nat}

/-- A read of an unmapped location answers 0 and faults (20_memory R75). -/
theorem hostRead_unmapped (h : locate s.build a = none) :
    hostRead a s = { hostFault .invalidInput s with reply := some 0 } := by
  simp only [hostRead, h]

/-- A write to an unmapped location faults (20_memory R75). -/
theorem hostWrite_unmapped (h : locate s.build a = none) :
    hostWrite a v s = .next (hostFault .invalidInput s) := by
  simp only [hostWrite, h]

/-- A write to a mapped location is decided by that location. -/
theorem hostWrite_mapped (h : locate s.build a = some l) : hostWrite a v s = writeMapped l v s := by
  simp only [hostWrite, h]

/-- A write to a read-only location faults (20_memory R75). -/
theorem writeMapped_readOnly (ha : l.access = .readOnly) (hv : v < 2 ^ l.width s.build) :
    writeMapped l v s = .next (hostFault .invalidInput s) := by
  simp only [writeMapped, if_pos hv, ha]

/-- A write to a context location faults while the context is locked (20_memory R78). -/
theorem writeMapped_locked (ha : l.access = .untilInit) (hv : v < 2 ^ l.width s.build)
    (hinit : s.status.init = true) : writeMapped l v s = .next (hostFault .noValidConfig s) := by
  simp only [writeMapped, if_pos hv, ha, if_pos hinit]

end rejected

/-- Settles O21: the step is the transaction whose turn it is, each kind of rejected access is a host fault,
and taking the transaction off its queue has left the build and `STATUS` alone. -/
theorem badAccessesFault : Obligations.BadAccessesFault := by
  unfold Obligations.BadAccessesFault
  intro s s' a v
  refine ⟨fun hnone htakes => ?unmappedRead, fun hbad htakes => ?badWrite,
    fun hlocked hinit htakes => ?lockedWrite⟩
  case unmappedRead =>
    rw [← build_of_takes htakes] at hnone
    rw [step_of_takes htakes, transact, hostRead_unmapped hnone, hostFault_of_takes htakes]
  case badWrite =>
    rw [← build_of_takes htakes] at hbad
    rw [step_of_takes htakes, transact, ← hostFault_of_takes htakes]
    obtain hnone | ⟨l, hloc, haccess, hv⟩ := hbad
    · exact hostWrite_unmapped hnone
    · rw [hostWrite_mapped hloc, writeMapped_readOnly haccess hv]
  case lockedWrite =>
    rw [← build_of_takes htakes] at hlocked
    rw [← status_of_takes htakes] at hinit
    obtain ⟨l, hloc, haccess, hv⟩ := hlocked
    rw [step_of_takes htakes, transact, hostWrite_mapped hloc, writeMapped_locked haccess hv hinit,
      hostFault_of_takes htakes]

end Sys2Proof.Proofs.Memory
end

section
/-! PROOFS. Faults of commands are precise (60_exceptions R336): every instruction is a `command` of its row's
`op` whose tests raise three kinds only, so what it can do is what `command_cases` says. -/

namespace Sys2Proof.Proofs.Exceptions

open Sys2Proof.Machine Sys2Proof.Laws

/-! The `op` of an instruction. -/

theorem opOf_lt (c : Word) : opOf c < 256 := Nat.mod_lt _ (by decide)

/-- The encoder puts the `op` of its row into every word (30_encoding R95). -/
theorem opOf_encode (i : Instr) : opOf (encode i) = (rowCode i).1 := by
  cases i
  case bnLsh rd ra imm16 => exact (RowFields.bnLsh rd ra imm16).1
  case bnRsh rd ra imm16 => exact (RowFields.bnRsh rd ra imm16).1
  all_goals exact (rowR (by decide)).1

/-- The `ERR` word of a fault of a command, `(op << 8) | K` (10_state R42). -/
theorem word_of_fault (k : Kind) {op : Nat} (h : op < 256) :
    ErrReg.word ⟨some k, op⟩ = 256 * op + k.code := by
  simp only [ErrReg.word, Nat.mod_eq_of_lt h, Nat.add_comm]

/-! The kinds that the tests of a command raise (60_exceptions R330, R331). -/

/-- The three kinds that a command raises. -/
def Raised (k : Kind) : Prop := k = .precisionExceeded ∨ k = .invalidInput ∨ k = .noValidConfig

/-- The tests `cs` raise no other kind. -/
def RaiseOnly (cs : List Check) : Prop := ∀ c ∈ cs, Raised c.kind

/-- A list of tests that raises only these kinds faults only with them. -/
theorem raised_of_firstFault {cs : List Check} {k : Kind} (hcs : RaiseOnly cs)
    (h : firstFault cs = some k) : Raised k := by
  obtain ⟨c, hc, -, rfl⟩ := firstFault_eq_some h
  exact hcs c hc

section lists

variable {c : Check} {cs ds : List Check}

@[simp] theorem raiseOnly_nil : RaiseOnly [] := List.forall_mem_nil _

@[simp] theorem raiseOnly_cons : RaiseOnly (c :: cs) ↔ Raised c.kind ∧ RaiseOnly cs :=
  List.forall_mem_cons

@[simp] theorem raiseOnly_append : RaiseOnly (cs ++ ds) ↔ RaiseOnly cs ∧ RaiseOnly ds :=
  List.forall_mem_append

@[simp] theorem raiseOnly_map_needInput {α : Type} (ok : α → Bool) (xs : List α) :
    RaiseOnly (xs.map fun x => needInput (ok x)) :=
  List.forall_mem_map.mpr fun _ _ => .inr (.inl rfl)

theorem raiseOnly_ite (b : Bool) (hcs : RaiseOnly cs) (hds : RaiseOnly ds) :
    RaiseOnly (if b then cs else ds) := by
  cases b
  · exact hds
  · exact hcs

end lists

section tests

variable (s : State) (own : Bool)

@[simp] theorem raised_needInput (ok : Bool) : Raised (needInput ok).kind := .inr (.inl rfl)

@[simp] theorem raised_needConfig (ok : Bool) : Raised (needConfig ok).kind := .inr (.inr rfl)

@[simp] theorem raised_needFit (b : Build) (r : Int) : Raised (needFit b r).kind := .inl rfl

@[simp] theorem raiseOnly_scalarChecks (ks : List BigReg) : RaiseOnly (scalarChecks ks) := by
  simp [scalarChecks]

@[simp] theorem raiseOnly_fpChecks (vs : List Nat) : RaiseOnly (fpChecks s vs) := by
  simp [fpChecks]

@[simp] theorem raiseOnly_expChecks (a : Nat) (e : BigReg) : RaiseOnly (expChecks s own a e) := by
  simp [expChecks]

@[simp] theorem raiseOnly_rdcnChecks (a : Nat) : RaiseOnly (rdcnChecks s own a) := by
  simp [rdcnChecks]

@[simp] theorem raiseOnly_rdcsChecks (a : Nat) : RaiseOnly (rdcsChecks s own a) := by
  simp [rdcsChecks]

@[simp] theorem raiseOnly_fbChecks (vs : List Nat) : RaiseOnly (fbChecks s own vs) := by
  simp [fbChecks]

@[simp] theorem raiseOnly_invChecks (v : FbInv) (a : Nat) : RaiseOnly (invChecks s v own a) := by
  simp [invChecks]

@[simp] theorem raiseOnly_epChecks (es : List PointReg) (ks : List BigReg) :
    RaiseOnly (epChecks s own es ks) := by
  simp [epChecks]

@[simp] theorem raiseOnly_ebChecks (es : List PointReg) (ks : List BigReg) :
    RaiseOnly (ebChecks s own es ks) := by
  simp [ebChecks]

@[simp] theorem raiseOnly_ebMulChecks (v : EbMul) (e : PointReg) (k : BigReg) :
    RaiseOnly (ebMulChecks s v own e k) :=
  raiseOnly_ebChecks s _ [e] [k]

@[simp] theorem raiseOnly_ctxChecks : RaiseOnly (ctxChecks s) := by
  have hfp : RaiseOnly (ctxFpChecks s) := by simp [ctxFpChecks]
  have hfb : RaiseOnly (ctxFbChecks s) := by simp [ctxFbChecks]
  simp only [ctxChecks, raiseOnly_append, raiseOnly_cons, raised_needConfig, raiseOnly_nil, true_and]
  exact ⟨raiseOnly_ite _ hfp raiseOnly_nil, raiseOnly_ite _ hfb raiseOnly_nil⟩

end tests

/-! What an instruction can do. -/

/-- Every instruction has the shape of a command (30_encoding R99, R100): the `op` of its row, tests that raise
the three kinds only, and writes. -/
theorem exec_eq_command (i : Instr) (s : State) :
    ∃ cs writes, exec i s = command (rowCode i).1 cs writes s ∧ RaiseOnly cs := by
  cases i
  all_goals dsimp only [exec]
  -- `FP.RDC` has the tests of the build's back-end (43_fp R185).
  case fpRdc rd ra =>
    refine ⟨_, _, rfl, ?_⟩
    cases s.build.fpRdc
    · exact raiseOnly_rdcnChecks s true _
    · exact raiseOnly_rdcsChecks s true _
  all_goals
    refine ⟨_, _, rfl, ?_⟩
    simp

/-- An instruction that answers a state either completes with its writes or takes one of the three faults, with
its own `op`, in the state before it (60_exceptions R336). -/
theorem exec_cases {i : Instr} {s t : State} (h : exec i s = .next t) :
    (∃ writes : State → State, t = finish (writes s)) ∨
      ∃ k, Raised k ∧ t = takeFault k (opOf (encode i)) s := by
  obtain ⟨cs, writes, hexec, hcs⟩ := exec_eq_command i s
  rw [hexec, ← opOf_encode] at h
  obtain ⟨-, hdone⟩ | ⟨k, hk, hfault⟩ := command_cases h
  · exact .inl ⟨writes, hdone⟩
  · exact .inr ⟨k, raised_of_firstFault hcs hk, hfault⟩

/-- Settles O15: completion sets `DONE` and clears `BUSY`; a fault is `takeFault` in the state before the
command, whose `ERR` reads `(op << 8) | K` since an `op` has 8 bits. -/
theorem faultsArePrecise : Obligations.FaultsArePrecise := by
  unfold Obligations.FaultsArePrecise
  intro i s t h
  obtain ⟨writes, rfl⟩ | ⟨k, hk, rfl⟩ := exec_cases h
  · exact .inl ⟨rfl, rfl, rfl⟩
  · exact .inr ⟨k, hk, rfl, word_of_fault k (opOf_lt _)⟩

end Sys2Proof.Proofs.Exceptions
end

section
/-! PROOFS. Encoding (30_encoding R91 to R98): what the fields of an encoded word are, which words the rows of
the table accept, and the two round trips. -/

-- Elaboration one command at a time: the whole text compiles within the memory limit of the check.
set_option Elab.async false

namespace Sys2Proof.Proofs.Encoding

open Sys2Proof

/-! The fields of a word, and the word of its fields. -/

/-- The fields of a format R word are what was put into it (30_encoding R91). -/
theorem fieldsOf_wordR {op : Nat} (h : op < 256) (rd ra rb rc : Reg) (var lo : Nib) :
    fieldsOf (wordR op rd ra rb rc var lo) =
      ⟨op, rd, ra, rb, rc, var, lo,
        BitVec.ofNat 16 (rb.val * 2 ^ 12 + rc.val * 2 ^ 8 + var.val * 2 ^ 4 + lo.val)⟩ := by
  have := rd.isLt; have := ra.isLt; have := rb.isLt
  have := rc.isLt; have := var.isLt; have := lo.isLt
  simp only [fieldsOf, opOf, nibAt, bitsAt, wordR, BitVec.toNat_ofNat, Fields.mk.injEq, Fin.ext_iff]
  refine ⟨?_, ?_, ?_, ?_, ?_, ?_, ?_, BitVec.eq_of_toNat_eq ?_⟩
  case refine_8 => simp only [BitVec.toNat_ofNat]; omega
  all_goals omega

/-- The fields of a format S word that its rows read are what was put into it (30_encoding R93). -/
theorem fieldsOf_wordS {op : Nat} (h : op < 256) (rd ra : Reg) (imm16 : BitVec 16) :
    fieldsOf (wordS op rd ra imm16) =
      ⟨op, rd, ra, nibAt (wordS op rd ra imm16) 12, nibAt (wordS op rd ra imm16) 8,
        nibAt (wordS op rd ra imm16) 4, nibAt (wordS op rd ra imm16) 0, imm16⟩ := by
  have := rd.isLt; have := ra.isLt; have := imm16.isLt
  simp only [fieldsOf, opOf, nibAt, bitsAt, wordS, BitVec.toNat_ofNat, Fields.mk.injEq, Fin.ext_iff,
    true_and]
  refine ⟨?_, ?_, ?_, BitVec.eq_of_toNat_eq ?_⟩
  case refine_4 => simp only [BitVec.toNat_ofNat]; omega
  all_goals omega

/-- A word is the format R word of its fields: they cover all its bits (30_encoding R91). -/
theorem wordR_fieldsOf (c : Word) :
    wordR (fieldsOf c).op (fieldsOf c).rd (fieldsOf c).ra (fieldsOf c).rb (fieldsOf c).rc (fieldsOf c).var
      (fieldsOf c).lo = c := by
  have := c.isLt
  apply BitVec.eq_of_toNat_eq
  simp only [fieldsOf, opOf, nibAt, bitsAt, wordR, BitVec.toNat_ofNat]
  omega

/-- A word is the format S word of its fields (30_encoding R93). -/
theorem wordS_fieldsOf (c : Word) :
    wordS (fieldsOf c).op (fieldsOf c).rd (fieldsOf c).ra (fieldsOf c).imm16 = c := by
  have := c.isLt
  apply BitVec.eq_of_toNat_eq
  simp only [fieldsOf, opOf, nibAt, bitsAt, wordS, BitVec.toNat_ofNat]
  omega

/-! What each shape of row accepts (30_encoding R97). -/

section rows

variable {f : Fields} {i : Instr}

theorem ifZero_eq_ok {unused : List Nib} {j : Instr} :
    ifZero unused j = .ok i ↔ (∀ n ∈ unused, n = 0) ∧ j = i := by
  unfold ifZero
  split
  case isTrue hz =>
    have hall : ∀ n ∈ unused, n = 0 := by simpa using hz
    exact ⟨fun h => ⟨hall, Except.ok.inj h⟩, fun ⟨_, h⟩ => congrArg _ h⟩
  case isFalse hz =>
    exact ⟨(nomatch ·), fun ⟨h, _⟩ => absurd (by simpa using h) hz⟩

theorem var0_eq_ok {r : Except Undefined Instr} : var0 f r = .ok i ↔ f.var = 0 ∧ r = .ok i := by
  unfold var0
  split
  case isTrue hv => exact ⟨fun h => ⟨hv, h⟩, fun ⟨_, h⟩ => h⟩
  case isFalse hv => exact ⟨(nomatch ·), fun ⟨h, _⟩ => absurd h hv⟩

end rows

/-- The word of a decoded instruction is that of the fields it was decoded from, in the format of its row
(30_encoding R95, R97). -/
theorem encode_of_decodeFields {f : Fields} {i : Instr} (h : decodeFields f = .ok i) :
    encode i = wordR f.op f.rd f.ra f.rb f.rc f.var f.lo ∨ encode i = wordS f.op f.rd f.ra f.imm16 := by
  obtain ⟨op, rd, ra, rb, rc, var, lo, imm16⟩ := f
  unfold decodeFields at h
  dsimp only at h
  split at h
  -- An `op` whose rows differ in `var`.
  case h_29 | h_35 | h_44 | h_51 | h_52 | h_59 | h_60 =>
    obtain ⟨v, hv⟩ := var
    dsimp only at h
    split at h
    all_goals simp only [opsRRR, opsRR, opsSim, ifZero_eq_ok, List.forall_mem_cons, reduceCtorEq] at h
    all_goals
      obtain ⟨hz, rfl⟩ := h
      simp only [encode, hz]
      exact .inl rfl
  -- Format S (30_encoding R93).
  case h_14 | h_15 => obtain rfl := Except.ok.inj h; exact .inr rfl
  case h_61 => cases h
  -- An `op` with one row.
  all_goals
    obtain ⟨rfl, h⟩ := var0_eq_ok.mp h
    simp only [opsNone, opsSpR, opsSpRR, opsSpCmp, opsRRR, opsRR, opsCmp, opsOne, opsRRL, opsDiv, ifZero_eq_ok,
      List.forall_mem_cons] at h
    obtain ⟨hz, rfl⟩ := h
    simp only [encode, hz, true_or]

/-- Settles O2: a word is the word of its fields, and those are what its row accepted. -/
theorem encodeOfDecode : Obligations.EncodeOfDecode := by
  unfold Obligations.EncodeOfDecode
  intro c i h
  obtain h | h := encode_of_decodeFields h
  · rw [h, wordR_fieldsOf]
  · rw [h, wordS_fieldsOf]

/-- Settles O3. -/
theorem tableWordsDecode : Obligations.TableWordsDecode := by
  unfold Obligations.TableWordsDecode
  refine ⟨?_, ?_, ?_, ?_, ?_, ?_, ?_, ?_, ?_, ?_, ?_, ?_, ?_⟩
  all_goals rfl

/-- Settles O1: the decoder reads the fields that the encoder wrote, row by row. -/
theorem decodeOfEncode : Obligations.DecodeOfEncode := by
  unfold Obligations.DecodeOfEncode
  intro i
  cases i
  case bnLsh rd ra imm16 =>
    rw [decode, encode, fieldsOf_wordS (by decide)]; rfl
  case bnRsh rd ra imm16 =>
    rw [decode, encode, fieldsOf_wordS (by decide)]; rfl
  all_goals
    rw [decode, encode, fieldsOf_wordR (by decide)]
    rfl

end Sys2Proof.Proofs.Encoding
end

section
/-! PROOFS. What a command can write (30_encoding R100): but for `CTX.INIT` and `CLRERR` only registers, flags
and the record of free values, in the operations of `Machine/Ops`. Said once for every row, so that the frame of
a command and its invariants are inductions over those operations. -/

set_option Elab.async false

namespace Sys2Proof.Proofs.Exec

open Sys2Proof.Machine Sys2Proof.Laws Sys2Proof.Proofs.Exceptions

/-- `t` is `s` after writes of registers and flags and after draws of free values. -/
inductive Wrote (s : State) : State → Prop
  | same : Wrote s s
  | putN {t : State} (rd : Reg) (x : Int) : Wrote s t → Wrote s (t.putN rd x)
  | putFp {t : State} (rd : Reg) (x : Nat) : Wrote s t → Wrote s (t.putFp rd x)
  | putFb {t : State} (rd : Reg) (x : Nat) : Wrote s t → Wrote s (t.putFb rd x)
  | putDv {t : State} (rd : Reg) (x : Nat) : Wrote s t → Wrote s (t.putDv rd x)
  | putEp {t : State} (rd : Reg) (e : PointReg) : Wrote s t → Wrote s (t.putEp rd e)
  | putEb {t : State} (rd : Reg) (e : PointReg) : Wrote s t → Wrote s (t.putEb rd e)
  | putRc {t : State} (rd : Reg) (ds : List Int) : Wrote s t → Wrote s (t.putRc rd ds)
  | zeroReg {t : State} (sp : Nib) (rd : Reg) : Wrote s t → Wrote s (t.zeroReg sp rd)
  | copyReg {t : State} (sp : Nib) (rd ra : Reg) : Wrote s t → Wrote s (t.copyReg sp rd ra)
  | setCmp {t : State} (v : CmpResult) : Wrote s t → Wrote s (t.setCmp v)
  | setT {t : State} (v : Bool) : Wrote s t → Wrote s (t.setT v)
  | drawn {t : State} (k : Nat) : Wrote s t → Wrote s (t.drawn k)

namespace Wrote

section operations

variable {s t : State} (rd : Reg)

theorem putFpOr (h : Wrote s t) (v : Option Nat) : Wrote s (t.putFpOr rd v) := by
  obtain ⟨x, -, -, hx⟩ | hx := putFpOr_cases t rd v
  · exact hx ▸ h.putFp rd x
  · exact hx ▸ (h.putFp rd _).drawn 1

theorem putFbOr (h : Wrote s t) (v : Option Nat) : Wrote s (t.putFbOr rd v) := by
  obtain ⟨x, -, -, hx⟩ | hx := putFbOr_cases t rd v
  · exact hx ▸ h.putFb rd x
  · exact hx ▸ (h.putFb rd _).drawn 1

theorem putDvOr (h : Wrote s t) (ok : Bool) (v : Nat) : Wrote s (t.putDvOr ok rd v) := by
  cases ok
  · exact (h.putDv rd _).drawn 1
  · exact h.putDv rd v

theorem setCmpOr (h : Wrote s t) (ok : Bool) (v : CmpResult) : Wrote s (t.setCmpOr ok v) := by
  cases ok
  · exact (h.setCmp _).drawn 1
  · exact h.setCmp v

theorem epResult (h : Wrote s t) (es : List PointReg) (e : Option PointReg) (k : Nat) :
    Wrote s (t.epResult es rd e k) := by
  obtain ⟨x, -, -, -, hx⟩ | hx := epResult_cases t es rd e k
  · exact hx ▸ (h.putEp rd x).drawn k
  · exact hx ▸ (h.putEp rd _).drawn 4

theorem ebResult (h : Wrote s t) (es : List PointReg) (e : Option PointReg) (k : Nat) :
    Wrote s (t.ebResult es rd e k) := by
  obtain ⟨x, -, -, -, hx⟩ | hx := ebResult_cases t es rd e k
  · exact hx ▸ (h.putEb rd x).drawn k
  · exact hx ▸ (h.putEb rd _).drawn 4

theorem putFbRange (vs : List Nat) : ∀ {t : State} (rd : Reg), Wrote s t → Wrote s (t.putFbRange rd vs) := by
  induction vs with
  | nil => exact fun _ h => h
  | cons v vs ih => exact fun rd h => ih (rd + 1) (h.putFb rd v)

end operations

end Wrote

/-- What no such write touches. -/
structure Untouched (s t : State) : Prop where
  status : t.status = s.status
  err : t.err = s.err
  ctx : t.ctx = s.ctx
  running : t.running = s.running
  build : t.build = s.build
  inbox : t.inbox = s.inbox
  held : t.held = s.held
  reply : t.reply = s.reply

theorem untouched_zeroReg (s : State) (sp : Nib) (rd : Reg) : Untouched s (s.zeroReg sp rd) := by
  unfold State.zeroReg
  split <;> exact ⟨rfl, rfl, rfl, rfl, rfl, rfl, rfl, rfl⟩

theorem untouched_copyReg (s : State) (sp : Nib) (rd ra : Reg) : Untouched s (s.copyReg sp rd ra) := by
  unfold State.copyReg
  split <;> exact ⟨rfl, rfl, rfl, rfl, rfl, rfl, rfl, rfl⟩

theorem Untouched.trans {s t u : State} (h : Untouched s t) (k : Untouched t u) : Untouched s u where
  status := k.status.trans h.status
  err := k.err.trans h.err
  ctx := k.ctx.trans h.ctx
  running := k.running.trans h.running
  build := k.build.trans h.build
  inbox := k.inbox.trans h.inbox
  held := k.held.trans h.held
  reply := k.reply.trans h.reply

theorem Wrote.untouched {s t : State} (h : Wrote s t) : Untouched s t := by
  induction h with
  | same => exact ⟨rfl, rfl, rfl, rfl, rfl, rfl, rfl, rfl⟩
  | zeroReg sp rd _ ih => exact ih.trans (untouched_zeroReg _ sp rd)
  | copyReg sp rd ra _ ih => exact ih.trans (untouched_copyReg _ sp rd ra)
  | _ => rename_i ih; exact ih.trans ⟨rfl, rfl, rfl, rfl, rfl, rfl, rfl, rfl⟩

/-! Every row. -/

/-- Every command but `CTX.INIT` and `CLRERR` writes registers and flags only (30_encoding R100). -/
theorem exec_wrote (i : Instr) (s : State) (hi : i ≠ .ctxInit) (hc : i ≠ .clrerr) :
    ∃ cs writes, exec i s = command (rowCode i).1 cs writes s ∧ Wrote s (writes s) := by
  cases i
  all_goals
    dsimp only [exec]
    refine ⟨_, _, rfl, ?_⟩
  case ctxInit => exact absurd rfl hi
  case clrerr => exact absurd rfl hc
  case nop | recReg => exact .same
  case dvZero sp rd => exact .zeroReg sp rd .same
  case dvCopy sp rd ra => exact .copyReg sp rd ra .same
  case dvCmp => exact .setCmp _ .same
  case bnAdd | bnSub | bnMul | bnSqr | bnMod | bnGcd | bnLsh | bnRsh => exact .putN _ _ .same
  case bnDiv => exact .putN _ _ (.putN _ _ .same)
  case recNaf | recWin => exact .putRc _ _ .same
  case recJsf => exact .putRc _ _ (.putRc _ _ .same)
  case recTnaf => exact .drawn _ (.putRc _ _ .same)
  case fpSrt =>
    split
    · exact .drawn _ (.setT _ (.putFp _ _ .same))
    · split
      · exact .setT _ .same
      · exact .drawn _ (.setT _ (.putFp _ _ .same))
  case fpCmp | fbCmp => exact .setCmpOr .same _ _
  case fpMuln | fbMuln => exact .putDvOr _ .same _ _
  case fbTrc =>
    split
    · exact .setT _ .same
    · exact .drawn _ (.setT _ .same)
  case fbInvSim =>
    dsimp only
    split
    · exact .putFbRange _ _ .same
    · exact .drawn _ (.putFbRange _ _ .same)
  case fpAdd | fpSub | fpNeg | fpDbl | fpHlv | fpMul | fpSqr | fpInv | fpExp | fpExpMonty | fpConv | fpBack
      | fpRdc | fpRdcn | fpRdcs =>
    exact .putFpOr _ .same _
  case fbAdd | fbMul | fbSqr | fbRdc | fbSrt | fbSlv | fbInv | fbInvBasic | fbInvBinar | fbInvAlmos | fbInvExgcd
      | fbInvItoht | fbInvLower =>
    exact .putFbOr _ .same _
  case epNeg | epDbl | epAdd | epNorm | epMul | epMulBasic | epMulLwnaf | epMulRwnaf | epSim | epSimBasic
      | epSimTrick | epSimInter | epSimJoint =>
    exact .epResult _ .same _ _ _
  all_goals exact .ebResult _ .same _ _ _

/-- What `CTX.INIT` writes (47_sys R322): the derived registers where there is a prime field, hidden constants,
`INIT`, and the record of free values. -/
theorem ctxInitWrites_eq (s : State) : ∃ consts table tape draws, ctxInitWrites s =
    { s with
      ctx := { (if s.build.hasFp then deriveFp s.build s.ctx else s.ctx) with tnaf := consts, fbt := table }
      tape := tape
      draws := draws
      status := { s.status with init := true } } := by
  unfold ctxInitWrites
  dsimp only
  cases hfp : s.build.hasFp
  all_goals
    simp only [Bool.false_eq_true, if_true, if_false, deriveFp]
    cases hfb : s.build.hasFb && s.ctx.ebFlags.kbltz
    all_goals
      simp only [Bool.false_eq_true, if_true, if_false, drawn_build]
      cases s.build.hasFbt
      all_goals exact ⟨_, _, _, _, rfl⟩

/-- Everything an instruction that answers a state can have done. -/
theorem exec_inversion {i : Instr} {s t : State} (h : exec i s = .next t) :
    (∃ k, Raised k ∧ t = takeFault k (opOf (encode i)) s) ∨
    (i = .ctxInit ∧ firstFault (ctxChecks s) = none ∧ t = finish (ctxInitWrites s)) ∨
    (i = .clrerr ∧ t = finish (clearFault s)) ∨
    (i ≠ .ctxInit ∧ i ≠ .clrerr ∧ ∃ u, Wrote s u ∧ t = finish u) := by
  by_cases hi : i = .ctxInit
  · subst hi
    obtain ⟨hc, ht⟩ | ⟨k, hk, ht⟩ := command_cases h
    · exact .inr (.inl ⟨rfl, hc, ht⟩)
    · exact .inl ⟨k, raised_of_firstFault (raiseOnly_ctxChecks s) hk, ht⟩
  by_cases hc : i = .clrerr
  · subst hc
    exact .inr (.inr (.inl ⟨rfl, (Host.Outcome.next.inj h).symm⟩))
  obtain ⟨cs, writes, he, hw⟩ := exec_wrote i s hi hc
  obtain ⟨w', ht⟩ | hfault := exec_cases h
  · rw [he] at h
    obtain ⟨-, ht⟩ | ⟨k, -, ht'⟩ := command_cases h
    · exact .inr (.inr (.inr ⟨hi, hc, _, hw, ht⟩))
    · rw [ht] at ht'
      exact absurd (congrArg (·.status.done) ht') (by simp [finish])
  · exact .inl hfault

/-! The two whole-machine rules that follow from it. -/

/-- The first half of O14: every meaning is a `command`, and that answers a next state on both paths. -/
theorem exec_next (i : Instr) (s : State) : ∃ t, exec i s = .next t := by
  obtain ⟨cs, writes, he, -⟩ := exec_eq_command i s
  rw [he, command]
  cases firstFault cs
  · exact ⟨_, rfl⟩
  · exact ⟨_, rfl⟩

/-- Settles O17: a fault touches `ERRF` only to set it, and what other commands write is neither the context nor
`STATUS`. -/
theorem stickyBits : Obligations.StickyBits := by
  unfold Obligations.StickyBits
  intro i s t h
  obtain ⟨k, -, rfl⟩ | ⟨rfl, -, rfl⟩ | ⟨rfl, rfl⟩ | ⟨hi, hc, u, hu, rfl⟩ := exec_inversion h
  · exact ⟨fun _ => ⟨rfl, rfl⟩, fun _ _ => rfl⟩
  · refine ⟨fun hi => absurd rfl hi, fun _ he => ?_⟩
    obtain ⟨_, _, _, _, hw⟩ := ctxInitWrites_eq s
    rw [hw]
    exact he
  · exact ⟨fun _ => ⟨rfl, rfl⟩, fun hc => absurd rfl hc⟩
  · have hs : u.status = s.status := hu.untouched.status
    exact ⟨fun _ => ⟨hu.untouched.ctx, show u.status.init = _ from hs ▸ rfl⟩,
      fun _ he => show u.status.errf = true from hs ▸ he⟩

end Sys2Proof.Proofs.Exec
end

section
/-! PROOFS. `CTX.INIT` (47_sys R322): its tests are the terms `FpStaged` and `FbStaged`, what it derives is
`FpDerived`, and the three outcomes of the command. -/

set_option Elab.async false

namespace Sys2Proof.Proofs.Context

open Sys2Proof.Machine Sys2Proof.Proofs.Exceptions Sys2Proof.Proofs.Exec

/-! Powers modulo p (43_fp R173). -/

theorem bitlen_half {e : Nat} (h : e ≠ 0) : bitlen (e / 2) + 1 = bitlen e := by
  unfold bitlen
  rw [if_neg h]
  split
  case isTrue h2 =>
    have : e = 1 := by omega
    subst this; rfl
  case isFalse h2 => rw [Nat.log2_def e, if_pos (by omega)]

theorem lt_two_pow_bitlen (a : Nat) : a < 2 ^ bitlen a := by
  unfold bitlen
  split
  · simp_all
  · exact Nat.lt_log2_self

theorem two_pow_le_of_bitlen {a : Nat} (h : a ≠ 0) : 2 ^ (bitlen a - 1) ≤ a := by
  rw [bitlen, if_neg h, Nat.add_sub_cancel]
  exact Nat.log2_self_le h

theorem bitlen_le_iff {a n : Nat} : bitlen a ≤ n ↔ a < 2 ^ n := by
  constructor
  · exact fun h => (lt_two_pow_bitlen a).trans_le (Nat.pow_le_pow_right (by decide) h)
  · intro h
    by_cases ha : a = 0
    · simp [bitlen, ha]
    · rw [bitlen, if_neg ha]
      exact (Nat.log2_lt ha).mpr h

/-- The loop multiplies the accumulator by the power that is left. -/
theorem powModLoop_mod (p : Nat) : ∀ fuel b e acc, bitlen e ≤ fuel →
    powModLoop p fuel b e acc ≡ acc * b ^ e [MOD p] := by
  intro fuel
  induction fuel with
  | zero =>
    intro b e acc he
    have : e = 0 := by simpa using bitlen_le_iff.mp he
    subst this
    simpa [powModLoop] using Nat.ModEq.refl acc
  | succ k ih =>
    intro b e acc he
    have hk : bitlen (e / 2) ≤ k := by
      by_cases h0 : e = 0
      · simp [h0, bitlen]
      · have := bitlen_half h0; omega
    have hsq : (b * b % p) ^ (e / 2) ≡ b ^ (2 * (e / 2)) [MOD p] := by
      rw [Nat.pow_mul, pow_two]
      exact (Nat.mod_modEq _ _).pow _
    refine (ih _ _ _ hk).trans ?_
    split
    case isTrue hodd =>
      have hpow : acc * b * b ^ (2 * (e / 2)) = acc * b ^ e := by
        rw [Nat.mul_assoc, ← Nat.pow_succ']; congr 2; omega
      exact hpow ▸ (Nat.mod_modEq _ _).mul hsq
    case isFalse heven =>
      have hpow : 2 * (e / 2) = e := by omega
      exact Nat.ModEq.rfl.mul (hsq.trans (by rw [hpow]))

/-- The loop answers a reduced value when the accumulator is one. -/
theorem powModLoop_lt {p : Nat} (hp : 0 < p) : ∀ fuel b e acc, acc < p → powModLoop p fuel b e acc < p := by
  intro fuel
  induction fuel with
  | zero => exact fun _ _ _ h => h
  | succ k ih =>
    intro b e acc h
    apply ih
    split
    · exact Nat.mod_lt _ hp
    · exact h

theorem powMod_lt {p : Nat} (hp : 0 < p) (b e : Nat) : powMod p b e < p :=
  powModLoop_lt hp _ _ _ _ (Nat.mod_lt _ hp)

theorem powMod_eq {p : Nat} (hp : 0 < p) (b e : Nat) : powMod p b e = b ^ e % p := by
  have h := powModLoop_mod p (bitlen e) (b % p) e (1 % p) le_rfl
  have h' : 1 % p * (b % p) ^ e ≡ b ^ e [MOD p] := by
    simpa using (Nat.mod_modEq 1 p).mul ((Nat.mod_modEq b p).pow e)
  exact Nat.ModEq.eq_of_lt_of_lt ((h.trans h').trans (Nat.mod_modEq _ _).symm) (powMod_lt hp b e)
    (Nat.mod_lt _ hp)

/-! The digit u of Montgomery reduction (10_state R46). -/

/-- An odd number to the power 2^(W−1) is 1 modulo 2^W, as the units are that many. -/
theorem odd_pow_totient {p W : Nat} (hp : p % 2 = 1) : p ^ 2 ^ (W - 1) ≡ 1 [MOD 2 ^ W] := by
  cases W with
  | zero => exact Nat.modEq_one
  | succ k =>
    have hcop : Nat.Coprime p (2 ^ (k + 1)) :=
      (Nat.coprime_pow_right_iff (Nat.succ_pos k) _ _).mpr
        (Nat.coprime_two_right.mpr (Nat.odd_iff.mpr hp))
    have h := Nat.ModEq.pow_totient hcop
    rwa [Nat.totient_prime_pow_succ Nat.prime_two, Nat.mul_one] at h

theorem montU_spec {W p : Nat} (hp : p % 2 = 1) : (p * montU W p + 1) % 2 ^ W = 0 := by
  have hpos : 0 < 2 ^ W := by positivity
  have hlt := powMod_lt hpos p (2 ^ (W - 1) - 1)
  have hpow : p * powMod (2 ^ W) p (2 ^ (W - 1) - 1) ≡ 1 [MOD 2 ^ W] := by
    rw [powMod_eq hpos]
    refine (Nat.ModEq.rfl.mul (Nat.mod_modEq _ _)).trans ?_
    rw [← Nat.pow_succ', Nat.succ_eq_add_one, Nat.sub_add_cancel Nat.one_le_two_pow]
    exact odd_pow_totient hp
  have hsum : p * montU W p + p * powMod (2 ^ W) p (2 ^ (W - 1) - 1) ≡ 0 [MOD 2 ^ W] := by
    refine ((Nat.ModEq.rfl.mul (Nat.mod_modEq _ _)).add_right _).trans ?_
    rw [← Nat.mul_add, Nat.sub_add_cancel hlt.le]
    exact Nat.modEq_zero_iff_dvd.mpr (Nat.dvd_mul_left _ _)
  exact (Nat.ModEq.add_left _ hpow.symm).trans hsum

/-! The tests. -/

/-- Tests that all raise one kind fault with it unless all hold. -/
theorem firstFault_of_kind {k : Kind} {cs : List Check} (h : ∀ c ∈ cs, c.kind = k) :
    firstFault cs = none ∨ firstFault cs = some k := by
  cases hf : firstFault cs with
  | none => exact .inl rfl
  | some j =>
    obtain ⟨c, hc, -, rfl⟩ := firstFault_eq_some hf
    exact .inr (congrArg some (h c hc))

theorem descending_iff (top : Nat) (ts : List SparseTerm) : descending top ts = true ↔
    ts.Pairwise (fun t u => u.s.toNat < t.s.toNat) ∧ ∀ t ∈ ts, t.s.toNat < top := by
  induction ts generalizing top with
  | nil => simp [descending]
  | cons t ts ih =>
    simp only [descending, Bool.and_eq_true, decide_eq_true_eq, ih, List.pairwise_cons, List.forall_mem_cons]
    constructor
    · rintro ⟨ht, hts, hlt⟩
      exact ⟨⟨hlt, hts⟩, ht, fun u hu => (hlt u hu).trans ht⟩
    · rintro ⟨⟨hlt, hts⟩, ht, -⟩
      exact ⟨ht, hts, hlt⟩

theorem below_iff (c : CurveCtx) (q : Nat) :
    c.below q = true ↔ c.a < q ∧ c.b < q ∧ c.gx < q ∧ c.gy < q := by
  simp [CurveCtx.below, and_assoc]

/-- The tests of the prime side hold exactly of a staged prime side (47_sys R322). -/
theorem fpChecks_pass (s : State) : firstFault (ctxFpChecks s) = none ↔ FpStaged s.build s.ctx := by
  have hfall : (s.ctx.sfCnt == 0 || descending s.ctx.sfTop.toNat s.ctx.sparseTerms) = true ↔
      (s.ctx.sfCnt ≠ 0 → (s.ctx.sfTerms.take s.ctx.sfCnt.toNat).Pairwise (fun t u => u.s.toNat < t.s.toNat) ∧
        ∀ t ∈ s.ctx.sfTerms.take s.ctx.sfCnt.toNat, t.s.toNat < s.ctx.sfTop.toNat) := by
    rw [Bool.or_eq_true, descending_iff, beq_iff_eq, Ctx.sparseTerms, or_iff_not_imp_left]
  have hsum : (s.ctx.sfCnt == 0 || s.ctx.sparseIsP) = true ↔
      (s.ctx.sfCnt ≠ 0 → (2 : Int) ^ s.ctx.sfTop.toNat +
        sparseTail (s.ctx.sfTerms.take s.ctx.sfCnt.toNat) = (s.ctx.fpP : Int)) := by
    rw [Bool.or_eq_true, beq_iff_eq, or_iff_not_imp_left, Ctx.sparseIsP, beq_iff_eq, Ctx.sparseTerms]
  simp only [firstFault_eq_none, ctxFpChecks, List.forall_mem_cons, needInput, hfall, hsum, below_iff,
    Bool.and_eq_true, beq_iff_eq, decide_eq_true_eq]
  constructor
  · rintro ⟨⟨hodd, hlen⟩, hcount, hfalling, hsum, hcurve, -⟩
    exact ⟨hodd, hlen, hcount, hfalling, hsum, hcurve⟩
  · rintro ⟨hodd, hlen, hcount, hfalling, hsum, hcurve⟩
    exact ⟨⟨hodd, hlen⟩, hcount, hfalling, hsum, hcurve, nofun⟩

/-- The tests of the binary side hold exactly of a staged binary side (47_sys R322). -/
theorem fbChecks_pass (s : State) : firstFault (ctxFbChecks s) = none ↔ FbStaged s.build s.ctx := by
  have hshape : s.ctx.polyShape s.build.m = true ↔
      (s.ctx.fb = 0 ∧ s.ctx.fc = 0 ∧ 0 < s.ctx.fa.toNat ∧ s.ctx.fa.toNat < s.build.m) ∨
        (s.ctx.fa.toNat < s.build.m ∧ s.ctx.fb.toNat < s.ctx.fa.toNat ∧ s.ctx.fc.toNat < s.ctx.fb.toNat ∧
          0 < s.ctx.fc.toNat) := by
    simp only [Ctx.polyShape, Bool.or_eq_true, Bool.and_eq_true, beq_iff_eq, decide_eq_true_eq, and_assoc]
  have hkoblitz : (!s.ctx.ebFlags.kbltz || (decide (s.ctx.eb.a ≤ 1) && decide (s.ctx.eb.b ≤ 1))) = true ↔
      (s.ctx.ebFlags.kbltz = true → s.ctx.eb.a ≤ 1 ∧ s.ctx.eb.b ≤ 1) := by
    cases s.ctx.ebFlags.kbltz <;> simp
  simp only [firstFault_eq_none, ctxFbChecks, List.forall_mem_cons, needInput, hshape, hkoblitz, below_iff]
  constructor
  · rintro ⟨hshape, hcurve, hkoblitz, -⟩
    exact ⟨hshape, hcurve, hkoblitz⟩
  · rintro ⟨hshape, hcurve, hkoblitz⟩
    exact ⟨hshape, hcurve, hkoblitz, nofun⟩

theorem fpChecks_kind (s : State) : ∀ c ∈ ctxFpChecks s, c.kind = .invalidInput := by
  simp [ctxFpChecks, needInput]

theorem fbChecks_kind (s : State) : ∀ c ∈ ctxFbChecks s, c.kind = .invalidInput := by
  simp [ctxFbChecks, needInput]

/-- A sparse form is staged where the back-end needs one (47_sys R322). -/
def SparseStaged (s : State) : Prop :=
  s.build.hasFp = true → s.build.fpRdc = .sparse → s.ctx.sfCnt ≠ 0

/-- The staged values of the units that are present pass their tests (47_sys R322). -/
def Staged (s : State) : Prop :=
  (s.build.hasFp = true → FpStaged s.build s.ctx) ∧ (s.build.hasFb = true → FbStaged s.build s.ctx)

/-- The tests on staged values, those of the units that are present. -/
theorem stagedChecks_pass (s : State) :
    firstFault ((if s.build.hasFp then ctxFpChecks s else []) ++ (if s.build.hasFb then ctxFbChecks s else [])) =
      none ↔ Staged s := by
  rw [firstFault_append, Option.or_eq_none_iff, Staged]
  cases s.build.hasFp <;> cases s.build.hasFb <;> simp [firstFault, fpChecks_pass, fbChecks_pass]

theorem stagedChecks_kind (s : State) : ∀ c ∈
    (if s.build.hasFp then ctxFpChecks s else []) ++ (if s.build.hasFb then ctxFbChecks s else []),
      c.kind = .invalidInput := by
  intro c hc
  obtain hc | hc := List.mem_append.mp hc
  · split at hc
    · exact fpChecks_kind s c hc
    · cases hc
  · split at hc
    · exact fbChecks_kind s c hc
    · cases hc

theorem sparseCheck_iff (s : State) :
    (!(s.build.hasFp && s.build.fpRdc == .sparse && s.ctx.sfCnt == 0)) = true ↔ SparseStaged s := by
  rw [Bool.not_eq_true', Bool.eq_false_iff]
  simp only [ne_eq, Bool.and_eq_true, beq_iff_eq, SparseStaged]
  tauto

/-- A failing test of configuration comes before every staged value (47_sys R322, 60_exceptions R338). -/
theorem firstFault_ctxChecks_config {s : State} (h : ¬(s.status.init = false ∧ SparseStaged s)) :
    firstFault (ctxChecks s) = some .noValidConfig := by
  rw [ctxChecks, List.append_assoc, firstFault_append]
  simp only [firstFault, needConfig]
  cases hinit : s.status.init
  case true => simp
  case false =>
    have hf := (Bool.not_eq_true _).mp (mt (sparseCheck_iff s).mp fun hs => h ⟨hinit, hs⟩)
    simp only [hf, Bool.not_false, Bool.false_eq_true, if_true, if_false, Option.some_or]

/-- With the configuration in order, the staged values decide (47_sys R322). -/
theorem firstFault_ctxChecks_staged {s : State} (hinit : s.status.init = false) (hs : SparseStaged s) :
    firstFault (ctxChecks s) =
      firstFault ((if s.build.hasFp then ctxFpChecks s else []) ++ (if s.build.hasFb then ctxFbChecks s else [])) := by
  rw [ctxChecks, List.append_assoc, firstFault_append]
  simp only [firstFault, needConfig, hinit, (sparseCheck_iff s).mpr hs, Bool.not_false, if_true, Option.none_or]

/-- `CTX.INIT` passes all its tests exactly on an unlocked context that is staged right. -/
theorem ctxChecks_pass (s : State) :
    firstFault (ctxChecks s) = none ↔ (s.status.init = false ∧ SparseStaged s) ∧ Staged s := by
  by_cases h : s.status.init = false ∧ SparseStaged s
  · rw [firstFault_ctxChecks_staged h.1 h.2, stagedChecks_pass, and_iff_right h]
  · rw [firstFault_ctxChecks_config h]
    exact ⟨nofun, fun hh => absurd hh.1 h⟩

/-! What the command derives. -/

/-- A context that `CTX.INIT` has locked is sound (47_sys R322). -/
theorem ctxSound_ctxInitWrites {s : State} (h : firstFault (ctxChecks s) = none) :
    CtxSound (ctxInitWrites s) := by
  obtain ⟨⟨-, hsparse⟩, hfp, hfb⟩ := (ctxChecks_pass s).mp h
  obtain ⟨_, _, _, _, hw⟩ := ctxInitWrites_eq s
  rw [hw]
  intro _
  refine ⟨fun hhas => ?_, fun hhas => ?_⟩
  · have hhas : s.build.hasFp = true := hhas
    obtain ⟨hodd, hlen, hcount, hfalling, hsum, hcurve⟩ := hfp hhas
    simp only [hhas, if_true]
    exact ⟨⟨hodd, hlen, hcount, hfalling, hsum, hcurve⟩, ⟨montU_spec hodd, rfl, rfl⟩, hsparse hhas⟩
  · obtain ⟨hshape, hcurve, hkoblitz⟩ := hfb hhas
    dsimp only
    split
    · exact ⟨hshape, hcurve, hkoblitz⟩
    · exact ⟨hshape, hcurve, hkoblitz⟩

/-- Settles O23: completion by what `ctxInitWrites` writes, the faults by the order of the tests. -/
theorem ctxInit : Obligations.CtxInit := by
  unfold Obligations.CtxInit
  intro s
  refine ⟨fun hinit hfp hfb => ?complete, fun h => command_faults ?config, fun hinit hsparse h => command_faults ?staged⟩
  case complete =>
    have hpass : firstFault (ctxChecks s) = none :=
      (ctxChecks_pass s).mpr ⟨⟨hinit, fun hhas => (hfp hhas).2⟩, fun hhas => (hfp hhas).1, hfb⟩
    refine ⟨_, command_completes hpass, ?_⟩
    obtain ⟨_, _, _, _, hw⟩ := ctxInitWrites_eq s
    rw [hw]
    have hvec : ∀ v, v ≠ .fpOne → (if s.build.hasFp then deriveFp s.build s.ctx else s.ctx).vec v = s.ctx.vec v := by
      intro v hv
      split
      · cases v <;> first | exact absurd rfl hv | rfl
      · rfl
    refine ⟨rfl, fun hhas => ?derived, fun hhas => ?absent, hvec, fun e => ?exponents, ?_, ?_, ?_, ?_, rfl, rfl, rfl,
      fun f => by cases f <;> rfl⟩
    case derived =>
      have hodd := (hfp hhas).1.odd
      simp only [finish, hhas, if_true]
      exact ⟨montU_spec hodd, rfl, rfl⟩
    case absent => simp [finish, hhas]
    case exponents =>
      dsimp only [finish]
      split
      · cases e <;> rfl
      · cases e <;> rfl
    all_goals
      dsimp only [finish]
      split
      all_goals rfl
  case config =>
    refine firstFault_ctxChecks_config ?_
    rintro ⟨hinit, hsparse⟩
    obtain h | ⟨hhas, hrdc, hcnt⟩ := h
    · rw [hinit] at h; cases h
    · exact hsparse hhas hrdc hcnt
  case staged =>
    rw [firstFault_ctxChecks_staged hinit fun hhas hrdc hcnt => hsparse ⟨hhas, hrdc, hcnt⟩]
    refine (firstFault_of_kind (stagedChecks_kind s)).resolve_left fun hpass => ?_
    obtain ⟨hfp, hfb⟩ := (stagedChecks_pass s).mp hpass
    obtain ⟨hhas, hn⟩ | ⟨hhas, hn⟩ := h
    · exact hn (hfp hhas)
    · exact hn (hfb hhas)

end Sys2Proof.Proofs.Context
end

section
/-! PROOFS. A step as a sequence of moves, each one rule of the port (20_memory R72 to R80, 30_encoding R99,
70_reset R360), so that an invariant of a step is one case for each rule. -/

set_option Elab.async false

namespace Sys2Proof.Proofs.Step

open Sys2Proof.Machine Sys2Proof.Proofs.Exceptions Sys2Proof.Proofs.Exec Sys2Proof.Proofs.Context

/-- One rule of the port, which changes the state `s` to the second one. -/
inductive Move (s : State) : State → Prop
  /-- Arrivals are taken off, and transactions that wait are taken off or join (20_memory R80). -/
  | requeue (inbox : List Arrival) (held : List Txn) (hin : ∀ a ∈ inbox, a ∈ s.inbox)
      (hheld : ∀ x ∈ held, x ∈ s.held ∨ (x ≠ .reset ∧ x ≠ .read statusAddr)) :
      Move s { s with inbox := inbox, held := held }
  | answer (v : Nat) : Move s { s with reply := some v }
  | reset (inbox : List Arrival) (held : List Txn) (hreset : .present .reset ∈ s.inbox ∨ .reset ∈ s.held)
      (hin : ∀ a ∈ inbox, a ∈ s.inbox) (hheld : ∀ x ∈ held, x ∈ s.held) :
      Move s (platformReset { s with inbox := inbox, held := held })
  | hostFault (k : Kind) (hk : Raised k) : Move s (hostFault k s)
  | write (a : HAddr) (l : Loc) (v : Nat) (hl : locate s.build a = some l)
      (ha : l.access = .readWrite ∨ l.access = .untilInit ∧ s.status.init = false) : Move s (writeLoc s v l)
  | issue (c : Word) (hr : s.running = none) : Move s (issue c s)
  | exec {t : State} (c : Word) (i : Instr) (hr : s.running = some c) (hd : decode c = .ok i)
      (h : exec i s = .next t) : Move s t
  | undefined (c : Word) (hr : s.running = some c) : Move s (takeFault .invalidInput (opOf c) s)

/-- Any number of moves. -/
abbrev Moves : State → State → Prop := Relation.ReflTransGen Move

theorem moves_dequeue (s : State) (inbox : List Arrival) (held : List Txn) (hin : ∀ a ∈ inbox, a ∈ s.inbox)
    (hheld : ∀ x ∈ held, x ∈ s.held) : Moves s { s with inbox := inbox, held := held } :=
  .single (.requeue inbox held hin fun x hx => .inl (hheld x hx))

/-- While a command runs: a reset, an answered read of `STATUS`, a transaction that joins those that wait, or the
end of the command (20_memory R80, 70_reset R360). -/
theorem moves_of_advance {c : Word} {s t : State} (hr : s.running = some c) (h : advance c s = .next t) :
    Moves s t := by
  obtain ⟨x, rest, hin, rfl⟩ | ⟨-, hc⟩ := advance_cases h
  · have hrest : ∀ a ∈ rest, a ∈ s.inbox := fun a ha => hin ▸ List.mem_cons_of_mem _ ha
    obtain ⟨rfl, he⟩ | ⟨-, he⟩ | ⟨hx, hx', he⟩ := presentEarly_cases x { s with inbox := rest }
    · exact he ▸ .single (.reset rest s.held (.inl (by simp [hin])) hrest fun _ => id)
    · exact he ▸ (moves_dequeue s rest s.held hrest fun _ => id).tail (.answer _)
    · refine he ▸ .single (.requeue rest (s.held ++ [x]) hrest fun y hy => ?_)
      obtain hy | hy := List.mem_append.mp hy
      · exact .inl hy
      · exact .inr (List.mem_singleton.mp hy ▸ ⟨hx, hx'⟩)
  · have htail : Moves s { s with inbox := s.inbox.tail } :=
      moves_dequeue s s.inbox.tail s.held (fun a => List.mem_of_mem_tail) fun _ => id
    obtain ⟨i, hd, he⟩ | ⟨u, -, rfl⟩ := complete_cases hc
    · exact htail.tail (.exec c i hr hd he)
    · exact htail.tail (.undefined c hr)

/-- A host read answers, on an unmapped address with a fault (20_memory R72, R75). -/
theorem moves_hostRead (a : HAddr) (s : State) : Moves s (hostRead a s) := by
  unfold hostRead
  split
  · exact .single (.answer _)
  · exact .tail (.single (.hostFault _ (.inr (.inl rfl)))) (.answer 0)

/-- A host write faults, writes its location, or issues a command (20_memory R73, R75, R78, 30_encoding R99). -/
theorem moves_of_hostWrite {a : HAddr} {v : Nat} {s t : State} (hr : s.running = none)
    (h : hostWrite a v s = .next t) : Moves s t := by
  unfold hostWrite at h
  split at h
  case h_2 => cases h; exact .single (.hostFault _ (.inr (.inl rfl)))
  case h_1 l hl =>
    obtain ⟨-, ⟨-, hc⟩ | ⟨-, rfl⟩ | ⟨-, -, rfl⟩ | ⟨ha, rfl⟩⟩ := writeMapped_cases h
    · unfold writeCmd at hc
      split at hc
      · exact .head (.issue _ hr) (moves_of_advance rfl hc)
      · cases hc; exact .refl
    · exact .single (.hostFault _ (.inr (.inl rfl)))
    · exact .single (.hostFault _ (.inr (.inr rfl)))
    · exact .single (.write a l v hl ha)

/-- A transaction other than a reset, between commands. -/
theorem moves_of_transact {x : Txn} {s t : State} (hr : s.running = none) (hx : x ≠ .reset)
    (h : transact x s = .next t) : Moves s t := by
  cases x with
  | read a => cases h; exact moves_hostRead a s
  | write a v => exact moves_of_hostWrite hr h
  | reset => exact absurd rfl hx

/-- Every step is a sequence of moves. -/
theorem moves_of_step {s t : State} (h : step s = .next t) : Moves s t := by
  obtain ⟨c, hr, ha⟩ | ⟨x, rest, hr, hheld, ht⟩ | ⟨x, rest, hr, -, hin, ht⟩ | ⟨-, -, -, rfl⟩ := step_cases h
  · exact moves_of_advance hr ha
  · have hrest : ∀ y ∈ rest, y ∈ s.held := fun y hy => hheld ▸ List.mem_cons_of_mem _ hy
    by_cases hx : x = .reset
    · subst hx
      cases ht
      exact .single (.reset s.inbox rest (.inr (by simp [hheld])) (fun _ => id) hrest)
    · exact (moves_dequeue s s.inbox rest (fun _ => id) hrest).trans (moves_of_transact hr hx ht)
  · have hrest : ∀ a ∈ rest, a ∈ s.inbox := fun a ha => hin ▸ List.mem_cons_of_mem _ ha
    by_cases hx : x = .reset
    · subst hx
      cases ht
      exact .single (.reset rest s.held (.inl (by simp [hin])) hrest fun _ => id)
    · exact (moves_dequeue s rest s.held hrest fun _ => id).trans (moves_of_transact hr hx ht)
  · exact moves_dequeue s s.inbox.tail s.held (fun a => List.mem_of_mem_tail) fun _ => id

/-- What every move keeps, every step keeps. -/
theorem kept_by_step {P : State → Prop} (hmove : ∀ s t, P s → Move s t → P t) {s t : State} (hs : P s)
    (h : step s = .next t) : P t := by
  have hm := moves_of_step h
  clear h
  induction hm with
  | refl => exact hs
  | tail _ hlast ih => exact hmove _ _ ih hlast

/-! `STATUS` and `ERR`. -/

theorem statusOk_of_fault {s : State} (h : StatusOk s) {k : Kind} (hk : Raised k) {op : Nat} (hop : op < 256) :
    StatusOk (takeFault k op s) where
  notBoth := by simp
  busy := rfl
  errf := rfl
  kind := by rintro _ ⟨⟩; exact hk
  op := hop
  opNone := nofun
  held := h.held

theorem statusOk_finish {s : State} (h : StatusOk s) : StatusOk (finish s) where
  notBoth := by simp [finish]
  busy := rfl
  errf := h.errf
  kind := h.kind
  op := h.op
  opNone := h.opNone
  held := h.held

theorem statusOk_of_untouched {s t : State} (h : StatusOk s) (hu : Untouched s t) : StatusOk t := by
  obtain ⟨hstatus, herr, -, hrunning, -, -, hheld, -⟩ := hu
  constructor
  all_goals simp only [hstatus, herr, hrunning, hheld]
  exacts [h.notBoth, h.busy, h.errf, h.kind, h.op, h.opNone, h.held]

theorem statusOk_clearFault {s : State} (h : StatusOk s) : StatusOk (clearFault s) where
  notBoth := h.notBoth
  busy := h.busy
  errf := rfl
  kind := nofun
  op := (by decide : 0 < 256)
  opNone := fun _ => rfl
  held := h.held

theorem statusOk_ctxInitWrites {s : State} (h : StatusOk s) : StatusOk (ctxInitWrites s) := by
  obtain ⟨_, _, _, _, hw⟩ := ctxInitWrites_eq s
  rw [hw]
  exact ⟨h.notBoth, h.busy, h.errf, h.kind, h.op, h.opNone, h.held⟩

theorem statusOk_exec {i : Instr} {s t : State} (hs : StatusOk s) (h : exec i s = .next t) : StatusOk t := by
  obtain ⟨k, hk, rfl⟩ | ⟨-, -, rfl⟩ | ⟨-, rfl⟩ | ⟨-, -, u, hu, rfl⟩ := exec_inversion h
  · exact statusOk_of_fault hs hk (opOf_lt _)
  · exact statusOk_finish (statusOk_ctxInitWrites hs)
  · exact statusOk_finish (statusOk_clearFault hs)
  · exact statusOk_finish (statusOk_of_untouched hs hu.untouched)

/-- Reset state has `STATUS` and `ERR` zero and nothing running (10_state R63). -/
theorem statusOk_reset (b : Build) : StatusOk (State.resetOf b) where
  notBoth := by simp [State.resetOf]
  busy := rfl
  errf := rfl
  kind := nofun
  op := (by decide : 0 < 256)
  opNone := fun _ => rfl
  held := by simp [State.resetOf]

theorem held_platformReset (s : State) : ∀ x ∈ (platformReset s).held, x ∈ s.held := by
  unfold platformReset
  split
  · exact fun _ => id
  · exact fun x hx => nomatch hx

theorem writeLoc_untouched (s : State) (v : Nat) (l : Loc) :
    (writeLoc s v l).status = s.status ∧ (writeLoc s v l).err = s.err ∧
      (writeLoc s v l).running = s.running ∧ (writeLoc s v l).build = s.build ∧
      (writeLoc s v l).inbox = s.inbox ∧ (writeLoc s v l).held = s.held := by
  cases l <;> exact ⟨rfl, rfl, rfl, rfl, rfl, rfl⟩

theorem statusOk_move {s t : State} (hs : StatusOk s) (h : Move s t) : StatusOk t := by
  cases h with
  | requeue inbox held hin hheld =>
    refine ⟨hs.notBoth, hs.busy, hs.errf, hs.kind, hs.op, hs.opNone, fun x hx => ?_⟩
    obtain hx | hx := hheld x hx
    · exact hs.held x hx
    · exact hx
  | answer v => exact ⟨hs.notBoth, hs.busy, hs.errf, hs.kind, hs.op, hs.opNone, hs.held⟩
  | reset inbox held _ _ hheld =>
    have hz := statusOk_reset s.build
    refine ⟨hz.notBoth, hz.busy, hz.errf, hz.kind, hz.op, hz.opNone, fun x hx => ?_⟩
    exact hs.held x (hheld x (held_platformReset _ x hx))
  | hostFault k hk =>
    exact ⟨hs.notBoth, hs.busy, rfl, by rintro _ ⟨⟩; exact hk, by simp [hostFault], nofun, hs.held⟩
  | write a l v _ _ =>
    obtain ⟨hstatus, herr, hrunning, -, -, hheld⟩ := writeLoc_untouched s v l
    constructor
    all_goals simp only [hstatus, herr, hrunning, hheld]
    exacts [hs.notBoth, hs.busy, hs.errf, hs.kind, hs.op, hs.opNone, hs.held]
  | issue c _ => exact ⟨by simp [issue], rfl, hs.errf, hs.kind, hs.op, hs.opNone, hs.held⟩
  | exec c i _ _ he => exact statusOk_exec hs he
  | undefined c _ => exact statusOk_of_fault hs (.inr (.inl rfl)) (opOf_lt c)

/-- Settles O10, one case for each move. -/
theorem stepKeepsStatus : Obligations.StepKeepsStatus := by
  unfold Obligations.StepKeepsStatus
  exact fun s t hs h => kept_by_step (fun _ _ => statusOk_move) hs h

/-! The context. -/

/-- A write of a location that is not of the context leaves the context alone. -/
theorem writeLoc_ctx {l : Loc} (ha : l.access = .readWrite) (s : State) (v : Nat) :
    (writeLoc s v l).ctx = s.ctx := by
  cases l
  case ctxDigit k i => cases k <;> cases ha
  all_goals first | rfl | cases ha

/-- With no reset to come, `INIT = 1` and the context `c` stay (70_reset R365). -/
def Locked (c : Ctx) (s : State) : Prop :=
  s.status.init = true ∧ s.ctx = c ∧ (∀ a ∈ s.inbox, a ≠ .present .reset) ∧ ∀ x ∈ s.held, x ≠ .reset

theorem locked_exec {c : Ctx} {i : Instr} {s t : State} (hs : Locked c s) (h : exec i s = .next t) : Locked c t := by
  obtain ⟨hinit, hctx, hin, hheld⟩ := hs
  obtain ⟨k, hk, rfl⟩ | ⟨-, hpass, -⟩ | ⟨-, rfl⟩ | ⟨-, -, u, hu, rfl⟩ := exec_inversion h
  · exact ⟨hinit, hctx, hin, hheld⟩
  · have hfree := ((ctxChecks_pass s).mp hpass).1.1
    rw [hinit] at hfree
    cases hfree
  · exact ⟨hinit, hctx, hin, hheld⟩
  · obtain ⟨hstatus, -, hctx', -, -, hinbox, hheld', -⟩ := hu.untouched
    exact ⟨show u.status.init = true from hstatus ▸ hinit, hctx'.trans hctx,
      show ∀ a ∈ u.inbox, _ from hinbox ▸ hin, show ∀ x ∈ u.held, _ from hheld' ▸ hheld⟩

theorem locked_move {c : Ctx} {s t : State} (hs : Locked c s) (h : Move s t) : Locked c t := by
  obtain ⟨hinit, hctx, hin, hheld⟩ := hs
  cases h with
  | requeue inbox held hin' hheld' =>
    exact ⟨hinit, hctx, fun a ha => hin a (hin' a ha), fun x hx => (hheld' x hx).elim (hheld x) And.left⟩
  | answer v => exact ⟨hinit, hctx, hin, hheld⟩
  | reset inbox held hreset _ _ => exact absurd hreset (not_or.mpr ⟨fun h => hin _ h rfl, fun h => hheld _ h rfl⟩)
  | hostFault k hk => exact ⟨hinit, hctx, hin, hheld⟩
  | write a l v _ ha =>
    obtain ha | ⟨-, hfree⟩ := ha
    · obtain ⟨hstatus, -, -, -, hinbox, hheld'⟩ := writeLoc_untouched s v l
      exact ⟨hstatus ▸ hinit, (writeLoc_ctx ha s v).trans hctx, hinbox ▸ hin, hheld' ▸ hheld⟩
    · rw [hinit] at hfree; cases hfree
  | issue c _ => exact ⟨hinit, hctx, hin, hheld⟩
  | exec c i _ _ he => exact locked_exec ⟨hinit, hctx, hin, hheld⟩ he
  | undefined c _ => exact ⟨hinit, hctx, hin, hheld⟩

/-- Settles O13: `CTX.INIT` faults on a locked context, and the window does not write one. -/
theorem contextIsLocked : Obligations.ContextIsLocked := by
  unfold Obligations.ContextIsLocked
  intro s t hinit hin hheld h
  obtain ⟨hinit', hctx, -⟩ := kept_by_step (fun _ _ => locked_move (c := s.ctx)) ⟨hinit, rfl, hin, hheld⟩ h
  exact ⟨hctx, hinit'⟩

theorem ctxSound_of_eq {s t : State} (h : CtxSound s) (hinit : t.status.init = s.status.init)
    (hctx : t.ctx = s.ctx) (hbuild : t.build = s.build) : CtxSound t := by
  unfold CtxSound
  rw [hinit, hctx, hbuild]
  exact h

theorem ctxSound_of_free {s : State} (h : s.status.init = false) : CtxSound s :=
  fun hinit => absurd (h.symm.trans hinit) nofun

theorem ctxSound_exec {i : Instr} {s t : State} (hs : CtxSound s) (h : exec i s = .next t) : CtxSound t := by
  obtain ⟨k, hk, rfl⟩ | ⟨-, hpass, rfl⟩ | ⟨-, rfl⟩ | ⟨-, -, u, hu, rfl⟩ := exec_inversion h
  · exact hs
  · exact ctxSound_ctxInitWrites hpass
  · exact hs
  · obtain ⟨hstatus, -, hctx, -, hbuild, -⟩ := hu.untouched
    exact ctxSound_of_eq hs (show u.status.init = _ from hstatus ▸ rfl) hctx hbuild

theorem ctxSound_move {s t : State} (hs : CtxSound s) (h : Move s t) : CtxSound t := by
  cases h with
  | reset => exact ctxSound_of_free rfl
  | write a l v _ ha =>
    obtain ⟨hstatus, -, -, hbuild, -⟩ := writeLoc_untouched s v l
    obtain ha | ⟨-, hfree⟩ := ha
    · exact ctxSound_of_eq hs (hstatus ▸ rfl) (writeLoc_ctx ha s v) hbuild
    · exact ctxSound_of_free (hstatus ▸ hfree)
  | exec c i _ _ he => exact ctxSound_exec hs he
  | _ => exact hs

/-- Settles O11: only `CTX.INIT` locks a context, and it has then checked it; only a reset unlocks one. -/
theorem stepKeepsContext : Obligations.StepKeepsContext := by
  unfold Obligations.StepKeepsContext
  exact fun s t ⟨_, hs⟩ h => kept_by_step (fun _ _ => ctxSound_move) hs h

/-! Widths. -/

/-- A property of every register of a file, after one of them is written. -/
theorem forall_set {α : Type} {P : α → Prop} {v : Vector α 16} {x : α} (rd : Reg) (hv : ∀ r : Reg, P v[r])
    (hx : P x) (r : Reg) : P (v.set rd x)[r] := by
  by_cases h : r = rd
  · subst h; rwa [getElem_set_same]
  · rw [getElem_set_other rd r v x h]; exact hv r

theorem fits_fit (W n : Nat) (e : PointReg) : (e.fit W n).fits W n :=
  ⟨digits_lt _ _ _, digits_lt _ _ _, digits_lt _ _ _⟩

theorem fits_infinity (W n : Nat) : PointReg.infinity.fits W n :=
  have h : 0 < 2 ^ (W * n) := by positivity
  ⟨h, h, h⟩

section setOneRegister

variable {s : State} (h : Fits s) (rd : Reg)

include h

theorem fits_setN {x : BigReg} (hx : x.mag < 2 ^ (s.build.W * s.build.bnDigs)) :
    Fits { s with n := s.n.set rd x } :=
  { h with n := forall_set (P := fun x : BigReg => x.mag < 2 ^ (s.build.W * s.build.bnDigs)) rd h.n hx }

theorem fits_setFp {x : Nat} (hx : x < 2 ^ (s.build.W * s.build.fpDigs)) : Fits { s with fp := s.fp.set rd x } :=
  { h with fp := forall_set (P := (· < 2 ^ (s.build.W * s.build.fpDigs))) rd h.fp hx }

theorem fits_setFb {x : Nat} (hx : x < 2 ^ (s.build.W * s.build.fbDigs)) : Fits { s with fb := s.fb.set rd x } :=
  { h with fb := forall_set (P := (· < 2 ^ (s.build.W * s.build.fbDigs))) rd h.fb hx }

theorem fits_setDv {x : Nat} (hx : x < 2 ^ (s.build.W * s.build.dvDigs)) : Fits { s with dv := s.dv.set rd x } :=
  { h with dv := forall_set (P := (· < 2 ^ (s.build.W * s.build.dvDigs))) rd h.dv hx }

theorem fits_setEp {e : PointReg} (he : e.fits s.build.W s.build.fpDigs) : Fits { s with ep := s.ep.set rd e } :=
  { h with ep := forall_set (P := fun e : PointReg => e.fits s.build.W s.build.fpDigs) rd h.ep he }

theorem fits_setEb {e : PointReg} (he : e.fits s.build.W s.build.fbDigs) : Fits { s with eb := s.eb.set rd e } :=
  { h with eb := forall_set (P := fun e : PointReg => e.fits s.build.W s.build.fbDigs) rd h.eb he }

theorem fits_setRc {x : RecReg} (hx : x.d.length = s.build.rcLen ∧ x.len ≤ s.build.rcLen) :
    Fits { s with rc := s.rc.set rd x } :=
  { h with rc := forall_set (P := fun x : RecReg => x.d.length = s.build.rcLen ∧ x.len ≤ s.build.rcLen) rd h.rc hx }

end setOneRegister

theorem fits_zeroReg {s : State} (h : Fits s) (sp : Nib) (rd : Reg) : Fits (s.zeroReg sp rd) := by
  have hpos (n : Nat) : 0 < 2 ^ (s.build.W * n) := by positivity
  unfold State.zeroReg
  split
  · exact fits_setDv h rd (hpos _)
  · exact fits_setN h rd (hpos _)
  · exact fits_setRc h rd ⟨List.length_replicate, Nat.zero_le _⟩
  · exact fits_setFp h rd (hpos _)
  · exact fits_setFb h rd (hpos _)
  · exact fits_setEp h rd (fits_infinity _ _)
  · exact fits_setEb h rd (fits_infinity _ _)
  · exact h

theorem fits_copyReg {s : State} (h : Fits s) (sp : Nib) (rd ra : Reg) : Fits (s.copyReg sp rd ra) := by
  unfold State.copyReg
  split
  · exact fits_setDv h rd (h.dv ra)
  · exact fits_setN h rd (h.n ra)
  · exact fits_setRc h rd (h.rc ra)
  · exact fits_setFp h rd (h.fp ra)
  · exact fits_setFb h rd (h.fb ra)
  · exact fits_setEp h rd (h.ep ra)
  · exact fits_setEb h rd (h.eb ra)
  · exact h

theorem fits_wrote {s t : State} (hs : Fits s) (h : Wrote s t) : Fits t := by
  induction h with
  | same => exact hs
  | putN rd x _ ih => exact fits_setN ih rd (digits_lt _ _ _)
  | putFp rd x _ ih => exact fits_setFp ih rd (digits_lt _ _ _)
  | putFb rd x _ ih => exact fits_setFb ih rd (digits_lt _ _ _)
  | putDv rd x _ ih => exact fits_setDv ih rd (digits_lt _ _ _)
  | putEp rd e _ ih => exact fits_setEp ih rd (fits_fit _ _ _)
  | putEb rd e _ ih => exact fits_setEb ih rd (fits_fit _ _ _)
  | putRc rd ds _ ih => exact fits_setRc ih rd ⟨ofDigits_length _ ds, Nat.min_le_right _ _⟩
  | zeroReg sp rd _ ih => exact fits_zeroReg ih sp rd
  | copyReg sp rd ra _ ih => exact fits_copyReg ih sp rd ra
  | setCmp | setT | drawn => rename_i ih; exact { ih with }

/-- The derived registers fit: they are residues mod p, and p fits (10_state R46, R48). -/
theorem ctxFits_deriveFp {b : Build} {c : Ctx} (h : CtxFits b c) (hodd : c.fpP % 2 = 1) :
    CtxFits b (deriveFp b c) := by
  have hp : c.fpP < 2 ^ (b.W * b.fpDigs) := h.vec .fpP
  have hpos : 0 < c.fpP := by omega
  have hmod (x : Nat) : x % c.fpP < 2 ^ (b.W * b.fpDigs) := (Nat.mod_lt _ hpos).trans hp
  refine { h with vec := fun v => ?vec, fpU := Nat.mod_lt _ (by positivity), rr := hmod _ }
  case vec =>
    by_cases hv : v = .fpOne
    · subst hv
      show (deriveFp b c).fpOne < 2 ^ (b.W * b.fpDigs)
      dsimp only [deriveFp]
      split
      · exact hmod _
      · omega
    · have hsame : (deriveFp b c).vec v = c.vec v := by cases v <;> first | exact absurd rfl hv | rfl
      exact hsame ▸ h.vec v

/-- The hidden constants have no width to keep (10_state R55, R56). -/
theorem ctxFits_hidden {b : Build} {c : Ctx} (h : CtxFits b c) (consts : TnafConsts) (table : Option Nat) :
    CtxFits b { c with tnaf := consts, fbt := table } :=
  { h with vec := fun v => by have := h.vec v; cases v <;> exact this }

theorem fits_ctxInitWrites {s : State} (h : Fits s) (hpass : firstFault (ctxChecks s) = none) :
    Fits (ctxInitWrites s) := by
  obtain ⟨-, hfp, -⟩ := (ctxChecks_pass s).mp hpass
  obtain ⟨_, _, _, _, hw⟩ := ctxInitWrites_eq s
  rw [hw]
  have hctx : CtxFits s.build (if s.build.hasFp then deriveFp s.build s.ctx else s.ctx) := by
    split
    case isTrue hhas => exact ctxFits_deriveFp h.ctx (hfp hhas).odd
    case isFalse => exact h.ctx
  exact { h with ctx := ctxFits_hidden hctx _ _ }

theorem build_exec {i : Instr} {s t : State} (h : exec i s = .next t) : t.build = s.build := by
  obtain ⟨k, hk, rfl⟩ | ⟨-, -, rfl⟩ | ⟨-, rfl⟩ | ⟨-, -, u, hu, rfl⟩ := exec_inversion h
  · rfl
  · obtain ⟨_, _, _, _, hw⟩ := ctxInitWrites_eq s
    rw [hw]; rfl
  · rfl
  · exact hu.untouched.build

theorem fits_exec {i : Instr} {s t : State} (hs : Fits s) (h : exec i s = .next t) : Fits t := by
  obtain ⟨k, hk, rfl⟩ | ⟨-, hpass, rfl⟩ | ⟨-, rfl⟩ | ⟨-, -, u, hu, rfl⟩ := exec_inversion h
  · exact { hs with }
  · exact { fits_ctxInitWrites hs hpass with }
  · exact { hs with }
  · exact { fits_wrote hs hu with }

theorem fits_reset (b : Build) : Fits (State.resetOf b) := by
  have hpos (n : Nat) : 0 < 2 ^ (b.W * n) := by positivity
  have hget {α : Type} (x : α) (r : Reg) : (Vector.replicate 16 x)[r] = x := by simp
  constructor
  case rc => exact fun r => (hget (RecReg.zero b) r).symm ▸ ⟨List.length_replicate, Nat.zero_le _⟩
  case n => exact fun r => (hget BigReg.zero r).symm ▸ hpos _
  case ep | eb => exact fun r => (hget PointReg.infinity r).symm ▸ fits_infinity _ _
  case fp | fb | dv => exact fun r => (hget 0 r).symm ▸ hpos _
  exact ⟨fun v => by cases v <;> exact hpos _, Nat.two_pow_pos _, hpos _, by simp [State.resetOf, Ctx.zero]⟩


/-! The window. -/

/-- The index of a mapped location is within its row (20_memory R74). -/
def Loc.InRange (b : Build) : Loc → Prop
  | .ctxDigit v i => i < v.size b
  | .sfTerm i => i < b.sfMax
  | .dv _ i => i < b.dvDigs
  | .nDigit _ i => i < b.bnDigs
  | .rcEntry _ i => i < b.rcLen
  | .fp _ i => i < b.fpDigs
  | .fb _ i => i < b.fbDigs
  | .epDigit _ _ i => i < b.fpDigs
  | .ebDigit _ _ i => i < b.fbDigs
  | _ => True

theorem mappedIf_eq_some {c : Bool} {k l : Loc} : mappedIf c k = some l ↔ c = true ∧ k = l := by
  cases c <;> simp [mappedIf]

theorem lt_of_and_decide {c : Bool} {i n : Nat} (h : (c && decide (i < n)) = true) : i < n :=
  of_decide_eq_true (Bool.and_eq_true _ _ ▸ h).2

theorem inRange_locateVec {b : Build} {unit : Bool} {v : CtxVec} {i : Nat} {l : Loc}
    (h : locateVec b unit v i = some l) : Loc.InRange b l := by
  obtain ⟨hc, rfl⟩ := mappedIf_eq_some.mp h
  have hlt := lt_of_and_decide hc
  exact hlt

theorem inRange_locateSys {b : Build} {r c i : Nat} {l : Loc} (h : locateSys r c i = some l) :
    Loc.InRange b l := by
  unfold locateSys at h
  split at h <;> cases h <;> exact trivial

theorem inRange_locateCtx {b : Build} {r c i : Nat} {l : Loc} (h : locateCtx b r c i = some l) :
    Loc.InRange b l := by
  unfold locateCtx at h
  split at h
  case h_3 =>
    unfold locateSparse at h
    split at h <;> obtain ⟨hc, rfl⟩ := mappedIf_eq_some.mp h
    · trivial
    · trivial
    · have hlt := lt_of_and_decide hc
      exact hlt
  case h_4 =>
    unfold locatePoly at h
    split at h
    case h_4 => cases h
    all_goals obtain ⟨-, rfl⟩ := mappedIf_eq_some.mp h; trivial
  case h_5 =>
    unfold locateChain at h
    split at h <;> obtain ⟨-, rfl⟩ := mappedIf_eq_some.mp h <;> trivial
  case h_2 | h_14 => obtain ⟨-, rfl⟩ := mappedIf_eq_some.mp h; trivial
  case h_20 => cases h
  all_goals exact inRange_locateVec h

theorem inRange_locateReg {b : Build} {r : Reg} {k c i : Nat} {l : Loc} (h : locateReg b r k c i = some l) :
    Loc.InRange b l := by
  unfold locateReg at h
  split at h
  case h_3 | h_4 | h_6 => cases h; trivial
  case h_9 | h_11 => obtain ⟨-, rfl⟩ := mappedIf_eq_some.mp h; trivial
  case h_10 | h_12 =>
    obtain ⟨k, -, h⟩ := Option.bind_eq_some_iff.mp h
    obtain ⟨hc, rfl⟩ := mappedIf_eq_some.mp h
    have hlt := lt_of_and_decide hc
    exact hlt
  case h_7 | h_8 =>
    obtain ⟨hc, rfl⟩ := mappedIf_eq_some.mp h
    have hlt := lt_of_and_decide hc
    exact hlt
  case h_13 => cases h
  all_goals
    obtain ⟨hc, rfl⟩ := mappedIf_eq_some.mp h
    have hlt := of_decide_eq_true hc
    exact hlt

theorem inRange_locate {b : Build} {a : HAddr} {l : Loc} (h : locate b a = some l) : Loc.InRange b l := by
  unfold locate at h
  split at h
  · exact inRange_locateSys h
  · exact inRange_locateCtx h
  · exact inRange_locateReg h

theorem fits_setCoord {W n : Nat} {e : PointReg} (h : e.fits W n) (c : Coord) {v : Nat} (hv : v < 2 ^ (W * n)) :
    (e.setCoord c v).fits W n := by
  obtain ⟨hx, hy, hz⟩ := h
  cases c
  · exact ⟨hv, hy, hz⟩
  · exact ⟨hx, hv, hz⟩
  · exact ⟨hx, hy, hv⟩

theorem coord_lt {W n : Nat} {e : PointReg} (h : e.fits W n) (c : Coord) : e.coord c < 2 ^ (W * n) := by
  obtain ⟨hx, hy, hz⟩ := h
  cases c <;> assumption

theorem ctxFits_setVec {b : Build} {c : Ctx} (h : CtxFits b c) (k : CtxVec) {x : Nat}
    (hx : x < 2 ^ (b.W * k.size b)) : CtxFits b (c.setVec k x) := by
  refine ⟨fun v => ?_, ?_, ?_, ?_⟩
  · by_cases hv : v = k
    · subst hv
      cases v <;> exact hx
    · have hsame : (c.setVec k x).vec v = c.vec v := by
        cases k <;> cases v <;> first | rfl | exact absurd rfl hv
      exact hsame ▸ h.vec v
  · cases k <;> exact h.fpU
  · cases k <;> exact h.rr
  · cases k <;> exact h.terms

theorem ctxFits_writeCtx {b : Build} {c : Ctx} (h : CtxFits b c) (v : Nat) {l : Loc} (hl : Loc.InRange b l) :
    CtxFits b (writeCtx b c v l) := by
  cases l with
  | ctxDigit k i => exact ctxFits_setVec h k (setDigit_lt v hl (h.vec k))
  | sfTerm i => exact { h with vec := fun v => by have := h.vec v; cases v <;> exact this,
                               terms := (List.length_set).trans h.terms }
  | poly e => exact ⟨fun v => by have := h.vec v; cases e <;> cases v <;> exact this, by cases e <;> exact h.fpU,
      by cases e <;> exact h.rr, by cases e <;> exact h.terms⟩
  | sfCnt | sfTop | ebFlags => exact { h with vec := fun v => by have := h.vec v; cases v <;> exact this }
  | _ => exact h

theorem fits_writeLoc {s : State} (h : Fits s) (v : Nat) {l : Loc} (hl : Loc.InRange s.build l) :
    Fits (writeLoc s v l) := by
  cases l with
  | dv r i => exact fits_setDv h r (setDigit_lt v hl (h.dv r))
  | nDigit r i => exact fits_setN h r (setDigit_lt v hl (h.n r))
  | nSign r => exact fits_setN h r (h.n r)
  | rcEntry r i => exact fits_setRc h r ⟨(List.length_set).trans (h.rc r).1, (h.rc r).2⟩
  | rcLen r => exact fits_setRc h r ⟨(h.rc r).1, Nat.min_le_right _ _⟩
  | fp r i => exact fits_setFp h r (setDigit_lt v hl (h.fp r))
  | fb r i => exact fits_setFb h r (setDigit_lt v hl (h.fb r))
  | epDigit r c i => exact fits_setEp h r (fits_setCoord (h.ep r) c (setDigit_lt v hl (coord_lt (h.ep r) c)))
  | epNorm r => exact fits_setEp h r (h.ep r)
  | ebDigit r c i => exact fits_setEb h r (fits_setCoord (h.eb r) c (setDigit_lt v hl (coord_lt (h.eb r) c)))
  | ebNorm r => exact fits_setEb h r (h.eb r)
  | _ => exact { h with ctx := ctxFits_writeCtx h.ctx v hl }

theorem fits_move {b : Build} {s t : State} (hs : Fits s ∧ s.build = b) (h : Move s t) :
    Fits t ∧ t.build = b := by
  obtain ⟨hfits, hb⟩ := hs
  cases h with
  | reset => exact ⟨{ fits_reset s.build with }, hb⟩
  | write a l v hl _ => exact ⟨fits_writeLoc hfits v (inRange_locate hl), (writeLoc_untouched s v l).2.2.2.1.trans hb⟩
  | exec c i _ _ he => exact ⟨fits_exec hfits he, (build_exec he).trans hb⟩
  | _ => exact ⟨{ hfits with }, hb⟩

/-- Settles O9: every write of a register cuts the value, or replaces a digit inside it. -/
theorem stepKeepsWidths : Obligations.StepKeepsWidths := by
  unfold Obligations.StepKeepsWidths
  exact fun s t hs h => kept_by_step (fun _ _ => fits_move) ⟨hs, rfl⟩ h

/-- Settles O12. -/
theorem resetMeetsInvariants : Obligations.ResetMeetsInvariants := by
  unfold Obligations.ResetMeetsInvariants
  exact fun b => ⟨fits_reset b, statusOk_reset b, ctxSound_of_free rfl⟩

end Sys2Proof.Proofs.Step
end

section
/-! PROOFS. The command port and the host's transactions (20_memory R72, R80, R81, 30_encoding R98 to R101, 70_reset
R360, R380): issue, completion, what waits, reset, and the one stop of the machine. -/

set_option Elab.async false

namespace Sys2Proof.Proofs.Port

open Sys2Proof.Machine Sys2Proof.Laws Sys2Proof.Proofs.Memory Sys2Proof.Proofs.Exceptions Sys2Proof.Proofs.Exec

/-! The write of a word to `CMD`. -/

theorem hostWrite_cmd (c : Word) (s : State) : hostWrite cmdAddr c.toNat s = writeCmd c s := by
  have hloc : locate s.build cmdAddr = some .cmd := rfl
  have hwidth : c.toNat < 2 ^ Loc.width s.build .cmd := c.isLt
  rw [hostWrite_mapped hloc, writeMapped, if_pos hwidth]
  simp only [Loc.access, BitVec.ofNat_toNat, BitVec.setWidth_eq]

theorem step_of_takes_cmd {s s' : State} {c : Word} (h : Takes s (.write cmdAddr c.toNat) s') :
    step s = writeCmd c s' := (step_of_takes h).trans (hostWrite_cmd c s')

theorem accepted_iff (s : State) (c : Word) : accepted s c = true ↔ s.status.errf = false ∨ opOf c = 2 := by
  simp [accepted]

/-- The word of a transaction that takes effect is issued when no fault is pending or it is `CLRERR`. -/
theorem step_of_takes_issued {s s' : State} {c : Word} (h : Takes s (.write cmdAddr c.toNat) s')
    (ha : s.status.errf = false ∨ opOf c = 2) : step s = advance c (issue c s') := by
  rw [← status_of_takes h, ← accepted_iff] at ha
  rw [step_of_takes_cmd h, writeCmd, if_pos ha]

theorem step_running {s : State} {c : Word} (h : s.running = some c) : step s = advance c s := by
  simp only [step, h]

/-- Where nothing is presented the running command ends. -/
theorem advance_quiet {c : Word} {s : State} (h : Quiet s) :
    advance c s = complete c { s with inbox := s.inbox.tail } := by
  obtain ⟨n, fp, fb, ep, eb, dv, rc, status, err, flags, ctx, running, build, inbox, held, reply, tape, draws⟩ := s
  cases inbox with
  | nil => rfl
  | cons a rest =>
    obtain rfl : a = .pause := h a rfl
    rfl

theorem complete_ok {c : Word} {i : Instr} (h : decode c = .ok i) (s : State) : complete c s = exec i s := by
  simp only [complete, h]

theorem complete_error {c : Word} {u : Undefined} (h : decode c = .error u) (s : State) :
    complete c s = .next (takeFault .invalidInput (opOf c) s) := by
  simp only [complete, h]

/-- Settles O4: an issued word is the command in progress of the state that its issue leaves, and that ends where
nothing is presented. -/
theorem stepRunsIssuedCommand : Obligations.StepRunsIssuedCommand := by
  unfold Obligations.StepRunsIssuedCommand
  refine ⟨fun s s' c i ht hq ha hd => ?_, fun s c i hr hq hd => ?_, fun s s' c ht ha => ?_⟩
  · rw [step_of_takes_issued ht ha, advance_quiet (s := issue c s') hq, complete_ok hd]; rfl
  · rw [step_running hr, advance_quiet hq, complete_ok hd]
  · rw [step_of_takes_issued ht ha, step_running (s := issue c s') rfl]

/-- The operand-field check is the first test of every command that has one (30_encoding R104). -/
theorem exec_of_not_wf {i : Instr} (h : i.wf = false) (s : State) :
    exec i s = .next (takeFault .invalidInput (opOf (encode i)) s) := by
  rw [opOf_encode]
  cases i
  case dvZero | dvCopy | dvCmp | bnDiv | recNaf | recJsf | recTnaf | recWin | recReg | fbInvSim =>
    dsimp only [exec]
    refine command_faults ?_
    rw [Instr.wf] at h
    simp only [List.cons_append, firstFault, needInput, h, Bool.false_eq_true, if_false]
  all_goals cases h

/-- Settles O5. -/
theorem badEncodingsFault : Obligations.BadEncodingsFault := by
  unfold Obligations.BadEncodingsFault
  refine ⟨fun s s' c u ht hq ha hd => ?_, fun s c u hr hq hd => ?_, fun i s h => exec_of_not_wf h s⟩
  · rw [step_of_takes_issued ht ha, advance_quiet (s := issue c s') hq, complete_error hd]; rfl
  · rw [step_running hr, advance_quiet hq, complete_error hd]

/-- Settles O6. -/
theorem errorStateDropsCommands : Obligations.ErrorStateDropsCommands := by
  unfold Obligations.ErrorStateDropsCommands
  intro s s' c ht he hop
  have hrefused : ¬accepted s' c = true := by
    rw [accepted_iff, status_of_takes ht, he]
    exact not_or.mpr ⟨nofun, hop⟩
  rw [step_of_takes_cmd ht, writeCmd, if_neg hrefused]

/-! While a command runs (20_memory R80). -/

/-- What a command in progress leaves of the host's side when it ends. -/
theorem exec_host_side {i : Instr} {s t : State} (h : exec i s = .next t) : t.inbox = s.inbox ∧ t.held = s.held ∧
    t.reply = s.reply ∧ t.running = none ∧ t.status.busy = false := by
  obtain ⟨k, -, rfl⟩ | ⟨-, -, rfl⟩ | ⟨-, rfl⟩ | ⟨-, -, u, hu, rfl⟩ := exec_inversion h
  · exact ⟨rfl, rfl, rfl, rfl, rfl⟩
  · obtain ⟨_, _, _, _, hw⟩ := ctxInitWrites_eq s
    rw [hw]
    exact ⟨rfl, rfl, rfl, rfl, rfl⟩
  · exact ⟨rfl, rfl, rfl, rfl, rfl⟩
  · obtain ⟨-, -, -, -, -, hinbox, hheld, hreply⟩ := hu.untouched
    exact ⟨hinbox, hheld, hreply, rfl, rfl⟩

theorem advance_present {c : Word} {x : Txn} {rest : List Arrival} {s : State}
    (h : s.inbox = .present x :: rest) : advance c s = .next (presentEarly x { s with inbox := rest }) := by
  simp only [advance, h]

/-- Settles O7. -/
theorem transactionsWhileBusy : Obligations.TransactionsWhileBusy := by
  unfold Obligations.TransactionsWhileBusy
  refine ⟨fun s c rest hs hr hin => ?status, fun s c x rest hr hin hx hx' => ?waits, fun s c hr hq => ?ends,
    fun s s' x => step_of_takes⟩
  case status =>
    have hbusy : s.status.busy = true := by rw [hs.busy, hr]; rfl
    have hdone : s.status.done = false := (Bool.not_eq_true _).mp fun hd => hs.notBoth ⟨hbusy, hd⟩
    refine ⟨_, rfl, ?_, ?_⟩
    · simp [Status.word, hbusy, hdone]
    · rw [step_running hr, advance_present hin]
      simp [presentEarly, Status.word, hbusy, hdone]
  case waits =>
    rw [step_running hr, advance_present hin]
    obtain ⟨hreset, -⟩ | ⟨hread, -⟩ | ⟨-, -, he⟩ := presentEarly_cases x { s with inbox := rest }
    · exact absurd hreset hx
    · exact absurd hread hx'
    · rw [he]
  case ends =>
    rw [step_running hr, advance_quiet hq]
    cases hd : decode c with
    | ok i =>
      obtain ⟨t, ht⟩ := exec_next i { s with inbox := s.inbox.tail }
      exact ⟨t, (complete_ok hd _).trans ht, exec_host_side ht⟩
    | error u => exact ⟨_, complete_error hd _, rfl, rfl, rfl, rfl, rfl⟩

/-! Reset (10_state R62 to R66, 70_reset R360, R361). -/

theorem used_zero (W : Nat) : BigReg.zero.used W = 1 := by
  have h : (W - 1) / W ≤ 1 := Nat.div_le_of_le_mul (by omega)
  simpa [BigReg.used, BigReg.zero, bitlen] using h

theorem isReset_resetOf (b : Build) : IsReset (State.resetOf b) := by
  have hget {α : Type} (x : α) (r : Reg) : (Vector.replicate 16 x)[r] = x := by simp
  constructor
  case n => exact fun r => hget _ r
  case used => exact fun r => (hget BigReg.zero r).symm ▸ used_zero _
  case fp | fb | ep | eb | dv => exact fun r => hget _ r
  case rc => exact fun r => (hget (RecReg.zero b) r).symm ▸ ⟨rfl, fun i => by simp [RecReg.zero]⟩
  case vec => exact fun v => by cases v <;> rfl
  case sparse => exact ⟨rfl, rfl, fun x hx => List.eq_of_mem_replicate hx⟩
  case poly => exact fun e => by cases e <;> rfl
  all_goals rfl

/-- A state with the registers of a reset one is reset, whatever the host's side. -/
theorem isReset_platformReset (s : State) : IsReset (platformReset s) :=
  { isReset_resetOf s.build with }

theorem held_platformReset_eq (s : State) : (platformReset s).held = [] ∨ (platformReset s).held = s.held := by
  unfold platformReset
  split
  · exact .inr rfl
  · exact .inl rfl

/-- Settles O8: the reset is taken at once, from among the arrivals while a command runs, from their head
otherwise. -/
theorem resetState : Obligations.ResetState := by
  unfold Obligations.ResetState
  refine ⟨fun b => ⟨isReset_resetOf b, rfl⟩, fun s rest hin hidle => ?_⟩
  have hstep : step s = .next (platformReset { s with inbox := rest }) := by
    cases hr : s.running with
    | some c => rw [step_running hr, advance_present hin]; rfl
    | none => simp only [step, hr, hidle hr, hin, transact]
  exact ⟨_, hstep, isReset_platformReset _, rfl, rfl, held_platformReset_eq { s with inbox := rest }⟩

/-! Totality (70_reset R380). -/

theorem advance_next (c : Word) (s : State) : ∃ t, advance c s = .next t := by
  have hcomplete (s : State) : ∃ t, complete c s = .next t := by
    cases hd : decode c with
    | ok i => exact (complete_ok hd s).symm ▸ exec_next i s
    | error u => exact ⟨_, complete_error hd s⟩
  unfold advance
  split
  · exact ⟨_, rfl⟩
  · exact hcomplete _
  · exact hcomplete _

/-- A write to a mapped location stops only on a value wider than it (log 5). -/
theorem writeMapped_total (l : Loc) (v : Nat) (s : State) : (∃ t, writeMapped l v s = .next t) ∨
    (writeMapped l v s = .fault .valueWiderThanLocation ∧ 2 ^ l.width s.build ≤ v) := by
  unfold writeMapped
  split
  case isFalse h => exact .inr ⟨rfl, Nat.le_of_not_lt h⟩
  case isTrue =>
    left
    split
    · unfold writeCmd
      split
      · exact advance_next _ _
      · exact ⟨_, rfl⟩
    · exact ⟨_, rfl⟩
    · exact ⟨_, rfl⟩
    · split
      · exact ⟨_, rfl⟩
      · exact ⟨_, rfl⟩

/-- A transaction between commands stops only on such a write. -/
theorem transact_total (x : Txn) (s : State) : (∃ t, transact x s = .next t) ∨
    (transact x s = .fault .valueWiderThanLocation ∧ ∃ a v l, x = .write a v ∧ locate s.build a = some l ∧
      2 ^ l.width s.build ≤ v) := by
  cases x with
  | read a => exact .inl ⟨_, rfl⟩
  | reset => exact .inl ⟨_, rfl⟩
  | write a v =>
    cases hl : locate s.build a with
    | none => exact .inl ⟨_, hostWrite_unmapped hl⟩
    | some l =>
      have he : transact (.write a v) s = writeMapped l v s := hostWrite_mapped hl
      rw [he]
      exact (writeMapped_total l v s).imp_right fun ⟨hf, hv⟩ => ⟨hf, a, v, l, rfl, hl, hv⟩

theorem step_of_takes_total {s s' : State} {x : Txn} (h : Takes s x s') : (∃ t, step s = .next t) ∨
    (step s = .fault .valueWiderThanLocation ∧ ∃ a v s' l, Takes s (.write a v) s' ∧
      locate s.build a = some l ∧ 2 ^ l.width s.build ≤ v) := by
  rw [step_of_takes h]
  refine (transact_total x s').imp_right fun ⟨hf, a, v, l, hx, hl, hv⟩ => ?_
  subst hx
  rw [build_of_takes h] at hl hv
  exact ⟨hf, a, v, s', l, h, hl, hv⟩

/-- Settles O14: commands always answer, and a step that is no command is idle or takes a transaction. -/
theorem commandsNeverStop : Obligations.CommandsNeverStop := by
  unfold Obligations.CommandsNeverStop
  refine ⟨exec_next, fun s => ?_⟩
  cases hr : s.running with
  | some c => exact .inl (step_running hr ▸ advance_next c s)
  | none =>
    cases hh : s.held with
    | cons x rest => exact step_of_takes_total ⟨hr, .inl ⟨rest, hh, rfl⟩⟩
    | nil =>
      cases hin : s.inbox with
      | nil => exact .inl ⟨s, by simp only [step, hr, hh, hin]⟩
      | cons a rest =>
        cases a with
        | present x => exact step_of_takes_total ⟨hr, .inr ⟨hh, rest, hin, rfl⟩⟩
        | pause => exact .inl ⟨{ s with inbox := rest }, by simp only [step, hr, hh, hin]⟩

/-! Two short rules. -/

/-- What a read takes its value from is not touched when the transaction is taken off its queue. -/
theorem readLoc_of_takes {s s' : State} {x : Txn} (h : Takes s x s') (l : Loc) : readLoc s' l = readLoc s l := by
  obtain ⟨-, ⟨_, -, rfl⟩ | ⟨-, _, -, rfl⟩⟩ := h
  · cases l <;> rfl
  · cases l <;> rfl

/-- Settles O20. -/
theorem hostReadChangesNothing : Obligations.HostReadChangesNothing := by
  unfold Obligations.HostReadChangesNothing
  intro s s' a l ht hl
  rw [← build_of_takes ht] at hl
  rw [step_of_takes ht]
  simp only [transact, hostRead, hl, readLoc_of_takes ht]

/-- Settles O22: neither command has a test. -/
theorem nopAndClrerr : Obligations.NopAndClrerr := by
  unfold Obligations.NopAndClrerr
  exact fun s => ⟨rfl, rfl⟩

end Sys2Proof.Proofs.Port
end

section
/-! PROOFS. The tests of a command, in the order of 60_exceptions R338: operand fields, configuration, canonical
sources, the curve equation, and then what the command tests of its own. Each of the first four is one function of
the instruction, tied to the term of `Safety` that says when it passes. -/

set_option Elab.async false

namespace Sys2Proof.Proofs.Faults

open Sys2Proof.Machine Sys2Proof.Laws Sys2Proof.Proofs.Exceptions Sys2Proof.Proofs.Exec Sys2Proof.Proofs.Context

/-! Lists of tests. -/

/-- Where every test that fails raises `k` and one does, the fault is `k`. -/
theorem firstFault_eq {k : Kind} {cs : List Check} (hk : ∀ c ∈ cs, c.ok = false → c.kind = k)
    (hc : ∃ c ∈ cs, c.ok = false) : firstFault cs = some k := by
  cases hf : firstFault cs with
  | none =>
    obtain ⟨c, hmem, hfail⟩ := hc
    have hpass := (firstFault_eq_none cs).mp hf c hmem
    rw [hfail] at hpass
    cases hpass
  | some j =>
    obtain ⟨c, hmem, hfail, rfl⟩ := firstFault_eq_some hf
    exact congrArg some (hk c hmem hfail)

theorem firstFault_append_of_pass {cs ds : List Check} (h : firstFault cs = none) :
    firstFault (cs ++ ds) = firstFault ds := by
  rw [firstFault_append, h, Option.none_or]

theorem firstFault_append_of_fail {cs ds : List Check} {k : Kind} (h : firstFault cs = some k) :
    firstFault (cs ++ ds) = some k := by
  rw [firstFault_append, h, Option.some_or]

/-! The four groups of tests. -/

/-- The operand-field check of a row that has one (30_encoding R104). -/
def opTests : Instr → List Check
  | .dvZero sp _ | .dvCopy sp _ _ => [needInput (spFile sp)]
  | .dvCmp sp _ _ => [needInput (spCompared sp)]
  | .bnDiv rd rc _ _ => [needInput (!(rd == rc))]
  | .recNaf _ _ w | .recTnaf _ _ w | .recReg _ _ w => [needInput (signedWidth w)]
  | .recWin _ _ w => [needInput (unsignedWidth w)]
  | .recJsf rd _ _ => [needInput (rd.val % 2 == 0)]
  | .fbInvSim rd ra cnt => [needInput (simRange rd ra cnt)]
  | _ => []

/-- The tests of the configuration (60_exceptions R353). -/
def configTests (s : State) : Instr → List Check
  | .ctxInit => [needConfig (!s.status.init),
      needConfig (!(s.build.hasFp && s.build.fpRdc == .sparse && s.ctx.sfCnt == 0))]
  | .dvZero sp _ | .dvCopy sp _ _ | .dvCmp sp _ _ => [needConfig (spPresent s.build sp)]
  | .recTnaf .. => [needConfig (fbReady s), needConfig s.ctx.ebFlags.kbltz]
  | .recReg .. => [needConfig false]
  | .fpAdd .. | .fpSub .. | .fpNeg .. | .fpDbl .. | .fpHlv .. | .fpMul .. | .fpSqr .. | .fpInv .. | .fpSrt ..
  | .fpCmp .. | .fpConv .. | .fpBack .. | .fpMuln .. => [needConfig (fpReady s)]
  | .fpExp .. | .epNeg .. | .epDbl .. | .epAdd .. | .epNorm .. | .epMul .. | .epSim .. =>
    [needConfig (fpReady s), needConfig true]
  | .fpExpMonty .. => [needConfig (fpReady s), needConfig s.build.expMonty]
  | .fpRdc .. =>
    match s.build.fpRdc with
    | .monty => [needConfig (fpReady s), needConfig true]
    | .sparse => [needConfig (fpReady s), needConfig true, needConfig (!(s.ctx.sfCnt == 0))]
  | .fpRdcn .. => [needConfig (fpReady s), needConfig (decide (.monty ∈ s.build.rdcSet))]
  | .fpRdcs .. => [needConfig (fpReady s), needConfig (decide (.sparse ∈ s.build.rdcSet)),
      needConfig (!(s.ctx.sfCnt == 0))]
  | .fbAdd .. | .fbMul .. | .fbSqr .. | .fbMuln .. | .fbSrt .. | .fbTrc .. | .fbCmp .. =>
    [needConfig (fbReady s), needConfig true]
  | .fbRdc .. => [needConfig (fbReady s)]
  | .fbSlv .. => [needConfig (fbReady s), needConfig (s.build.m % 2 == 1)]
  | .fbInv .. => [needConfig (fbReady s), needConfig (true && invAllowed s.build s.build.fbInv)]
  | .fbInvSim .. => [needConfig (fbReady s), needConfig (invAllowed s.build s.build.fbInv)]
  | .fbInvBasic .. => [needConfig (fbReady s),
      needConfig (decide (.basic ∈ s.build.fbInvSet) && invAllowed s.build .basic)]
  | .fbInvBinar .. => [needConfig (fbReady s),
      needConfig (decide (.binar ∈ s.build.fbInvSet) && invAllowed s.build .binar)]
  | .fbInvAlmos .. => [needConfig (fbReady s),
      needConfig (decide (.almos ∈ s.build.fbInvSet) && invAllowed s.build .almos)]
  | .fbInvExgcd .. => [needConfig (fbReady s),
      needConfig (decide (.exgcd ∈ s.build.fbInvSet) && invAllowed s.build .exgcd)]
  | .fbInvItoht .. => [needConfig (fbReady s),
      needConfig (decide (.itoht ∈ s.build.fbInvSet) && invAllowed s.build .itoht)]
  | .fbInvLower .. => [needConfig (fbReady s),
      needConfig (decide (.lower ∈ s.build.fbInvSet) && invAllowed s.build .lower)]
  | .epMulBasic .. => [needConfig (fpReady s), needConfig (decide (.basic ∈ s.build.epMulSet))]
  | .epMulLwnaf .. => [needConfig (fpReady s), needConfig (decide (.lwnaf ∈ s.build.epMulSet))]
  | .epMulRwnaf .. => [needConfig (fpReady s), needConfig (decide (.rwnaf ∈ s.build.epMulSet))]
  | .epSimBasic .. => [needConfig (fpReady s), needConfig (decide (.basic ∈ s.build.epSimSet))]
  | .epSimTrick .. => [needConfig (fpReady s), needConfig (decide (.trick ∈ s.build.epSimSet))]
  | .epSimInter .. => [needConfig (fpReady s), needConfig (decide (.inter ∈ s.build.epSimSet))]
  | .epSimJoint .. => [needConfig (fpReady s), needConfig (decide (.joint ∈ s.build.epSimSet))]
  | .ebNeg .. | .ebDbl .. | .ebAdd .. | .ebNorm .. | .ebSim .. => [needConfig (ebReady s), needConfig true]
  | .ebFrb .. => [needConfig (ebReady s), needConfig s.ctx.ebFlags.kbltz]
  | .ebHlv .. => [needConfig (ebReady s), needConfig (s.build.m % 2 == 1)]
  | .ebMul .. => [needConfig (ebReady s), needConfig (true && ebMulAllowed s s.build.ebMul)]
  | .ebMulBasic .. => [needConfig (ebReady s),
      needConfig (decide (.basic ∈ s.build.ebMulSet) && ebMulAllowed s .basic)]
  | .ebMulLwnaf .. => [needConfig (ebReady s),
      needConfig (decide (.lwnaf ∈ s.build.ebMulSet) && ebMulAllowed s .lwnaf)]
  | .ebMulRwnaf .. => [needConfig (ebReady s),
      needConfig (decide (.rwnaf ∈ s.build.ebMulSet) && ebMulAllowed s .rwnaf)]
  | .ebMulLodah .. => [needConfig (ebReady s),
      needConfig (decide (.lodah ∈ s.build.ebMulSet) && ebMulAllowed s .lodah)]
  | .ebMulHalve .. => [needConfig (ebReady s),
      needConfig (decide (.halve ∈ s.build.ebMulSet) && ebMulAllowed s .halve)]
  | .ebSimBasic .. => [needConfig (ebReady s), needConfig (decide (.basic ∈ s.build.ebSimSet))]
  | .ebSimTrick .. => [needConfig (ebReady s), needConfig (decide (.trick ∈ s.build.ebSimSet))]
  | .ebSimInter .. => [needConfig (ebReady s), needConfig (decide (.inter ∈ s.build.ebSimSet))]
  | .ebSimJoint .. => [needConfig (ebReady s), needConfig (decide (.joint ∈ s.build.ebSimSet))]
  | _ => []

/-- The tests that the sources are canonical (60_exceptions R333). -/
def sourceTests (s : State) (i : Instr) : List Check :=
  (sources i).fp.map (fun r => needInput (fpCanon s s.fp[r])) ++
  (sources i).fb.map (fun r => needInput (fbCanon s s.fb[r])) ++
  (sources i).ep.map (fun r => needInput (epCanon s s.ep[r])) ++
  (sources i).eb.map (fun r => needInput (ebCanon s s.eb[r])) ++
  (sources i).n.map (fun r => needInput s.n[r].canon)

/-- The tests that the source points are on their curve (45_ep R241, 46_eb R281). -/
def curveTests (s : State) (i : Instr) : List Check :=
  (sources i).ep.map (fun r => needInput (!s.build.epCheck || epOn s s.ep[r])) ++
  (sources i).eb.map (fun r => needInput (!s.build.ebCheck || ebOn s s.eb[r]))

/-- Every command makes the four groups of tests in this order, and then its own (60_exceptions R338). -/
theorem exec_tests (i : Instr) (s : State) : ∃ own writes, exec i s = command (rowCode i).1
    (opTests i ++ (configTests s i ++ (sourceTests s i ++ (curveTests s i ++ own)))) writes s := by
  cases i
  case fpRdc rd ra =>
    dsimp only [exec, execFpRdc, configTests]
    cases s.build.fpRdc
    · exact ⟨_, _, rfl⟩
    · exact ⟨_, _, rfl⟩
  case fbInvSim rd ra cnt =>
    have hsrc : (s.fbRange ra (cnt.val + 1)).map (fun v => needInput (fbCanon s v)) =
        sourceTests s (.fbInvSim rd ra cnt) := by
      simp only [State.fbRange, sourceTests, sources, List.map_map, List.map_nil, List.nil_append, List.append_nil]
      rfl
    rw [← hsrc]
    dsimp only [exec]
    exact ⟨_, _, rfl⟩
  all_goals
    dsimp only [exec]
    exact ⟨_, _, rfl⟩

/-! When each group passes. -/

theorem opTests_pass (i : Instr) : firstFault (opTests i) = none ↔ i.wf = true := by
  cases i
  case dvZero | dvCopy | dvCmp | bnDiv | recNaf | recJsf | recTnaf | recWin | recReg | fbInvSim =>
    rw [opTests, Instr.wf, firstFault_eq_none, List.forall_mem_singleton, needInput]
  all_goals exact ⟨fun _ => rfl, fun _ => rfl⟩

section config

variable (s : State)

theorem fpReady_iff : fpReady s = true ↔ FpUp s := Bool.and_eq_true_iff

theorem fbReady_iff : fbReady s = true ↔ FbUp s := Bool.and_eq_true_iff

theorem ebReady_iff : ebReady s = true ↔ EbUp s := by
  rw [ebReady, Bool.and_eq_true, fbReady_iff, Bool.not_eq_true', EbUp]

theorem spPresent_iff (b : Build) (sp : Nib) : spPresent b sp = true ↔
    (sp = 5 ∨ sp = 7 → b.hasFp = true) ∧ (sp = 6 ∨ sp = 8 → b.hasFb = true) := by
  unfold spPresent
  split
  case isTrue h =>
    have h' : ¬(sp = 6 ∨ sp = 8) := by rcases h with rfl | rfl <;> decide
    simp [h, h']
  case isFalse h =>
    split
    · simp [*]
    · simp [*]

theorem invAllowed_iff (v : FbInv) : invAllowed s.build v = true ↔ InvOk s v := by
  simp [invAllowed, InvOk, imp_iff_not_or]

theorem invAllowed_of_ne {v : FbInv} (h : v ≠ .basic) : invAllowed s.build v = true :=
  (invAllowed_iff s v).mpr fun hv => absurd hv h

theorem ebMulAllowed_iff (v : EbMul) : ebMulAllowed s v = true ↔ MulOk s v := by
  cases v
  case rwnaf =>
    simp [ebMulAllowed, MulOk, RwnafOk, imp_iff_not_or]
  case halve =>
    simp [ebMulAllowed, MulOk, HalveOk, and_assoc]
  all_goals simp [ebMulAllowed, MulOk]

/-- The tests of configuration raise `NoValidConfig` only. -/
theorem configTests_kind (i : Instr) : ∀ c ∈ configTests s i, c.kind = .noValidConfig := by
  cases i
  case fpRdc =>
    dsimp only [configTests]
    split <;> simp [needConfig]
  all_goals simp [configTests, needConfig]

/-- The tests of configuration pass exactly in the configuration of the table (60_exceptions R353). -/
theorem configTests_pass (i : Instr) : firstFault (configTests s i) = none ↔ ConfigOk s i := by
  rw [firstFault_eq_none]
  cases i
  case fpRdc =>
    dsimp only [configTests, ConfigOk]
    cases s.build.fpRdc <;> simp [needConfig, fpReady_iff]
  case ctxInit =>
    simp only [configTests, List.forall_mem_cons, needConfig, sparseCheck_iff]
    simp [ConfigOk, SparseStaged]
  all_goals
    simp [configTests, ConfigOk, needConfig, fpReady_iff, fbReady_iff, ebReady_iff, spPresent_iff, invAllowed_iff,
      ebMulAllowed_iff, MulOk, InvOk]

end config

section sources

variable (s : State)

theorem canon_iff (r : BigReg) : r.canon = true ↔ r ≠ ⟨true, 0⟩ := by
  obtain ⟨sign, mag⟩ := r
  cases sign <;> simp [BigReg.canon]

theorem epCanon_iff (e : PointReg) : epCanon s e = true ↔ ¬(s.ctx.fpP ≤ e.x ∨ s.ctx.fpP ≤ e.y ∨ s.ctx.fpP ≤ e.z ∨
    e.norm = true ∧ e.z ≠ s.ctx.fpOne) := by
  simp [epCanon, fpCanon, and_assoc, imp_iff_not_or]

theorem ebCanon_iff (e : PointReg) : ebCanon s e = true ↔ ¬(2 ^ s.build.m ≤ e.x ∨ 2 ^ s.build.m ≤ e.y ∨
    2 ^ s.build.m ≤ e.z ∨ e.norm = true ∧ e.z ≠ 1) := by
  simp [ebCanon, fbCanon, and_assoc, imp_iff_not_or]

theorem sourceTests_kind (i : Instr) : ∀ c ∈ sourceTests s i, c.kind = .invalidInput := by
  simp only [sourceTests, List.forall_mem_append, List.forall_mem_map, needInput, implies_true, and_self]

theorem curveTests_kind (i : Instr) : ∀ c ∈ curveTests s i, c.kind = .invalidInput := by
  simp only [curveTests, List.forall_mem_append, List.forall_mem_map, needInput, implies_true, and_self]

/-- The tests of the sources pass exactly when none of them is bad (60_exceptions R333). -/
theorem sourceTests_pass (i : Instr) : firstFault (sourceTests s i) = none ↔ ¬BadSource s i := by
  simp only [firstFault_eq_none, sourceTests, List.forall_mem_append, List.forall_mem_map, needInput, canon_iff,
    epCanon_iff, ebCanon_iff, fpCanon, fbCanon, decide_eq_true_iff, BadSource, not_or, not_exists, not_and, not_le]
  tauto

/-- The tests of the curve pass exactly when no source point is off it in a build that checks. -/
theorem curveTests_pass (i : Instr) : firstFault (curveTests s i) = none ↔ ¬OffCurveSource s i := by
  have hcheck (c on : Bool) : (!c || on) = true ↔ ¬(c = true ∧ on = false) := by cases c <;> cases on <;> decide
  simp only [firstFault_eq_none, curveTests, List.forall_mem_append, List.forall_mem_map, needInput, hcheck,
    OffCurveSource]
  constructor
  · rintro ⟨hep, heb⟩ (⟨hc, r, hr, hoff⟩ | ⟨hc, r, hr, hoff⟩)
    · exact hep r hr ⟨hc, hoff⟩
    · exact heb r hr ⟨hc, hoff⟩
  · exact fun h => ⟨fun r hr ⟨hc, hoff⟩ => h (.inl ⟨hc, r, hr, hoff⟩),
      fun r hr ⟨hc, hoff⟩ => h (.inr ⟨hc, r, hr, hoff⟩)⟩

end sources

/-! The faults of the table (60_exceptions R353). -/

section table

variable {s : State} {i : Instr}

theorem exec_config_fault (hwf : i.wf = true) (h : ¬ConfigOk s i) :
    exec i s = .next (takeFault .noValidConfig (opOf (encode i)) s) := by
  obtain ⟨own, writes, he⟩ := exec_tests i s
  have hfail := (firstFault_of_kind (configTests_kind s i)).resolve_left (mt (configTests_pass s i).mp h)
  rw [he, opOf_encode]
  refine command_faults ?_
  rw [firstFault_append_of_pass ((opTests_pass i).mpr hwf), firstFault_append_of_fail hfail]

theorem exec_source_fault (hwf : i.wf = true) (hc : ConfigOk s i) (h : BadSource s i ∨ OffCurveSource s i) :
    exec i s = .next (takeFault .invalidInput (opOf (encode i)) s) := by
  obtain ⟨own, writes, he⟩ := exec_tests i s
  rw [he, opOf_encode]
  refine command_faults ?_
  rw [firstFault_append_of_pass ((opTests_pass i).mpr hwf),
    firstFault_append_of_pass ((configTests_pass s i).mpr hc)]
  by_cases hs : BadSource s i
  · have hfail := (firstFault_of_kind (sourceTests_kind s i)).resolve_left fun hp => (sourceTests_pass s i).mp hp hs
    rw [firstFault_append_of_fail hfail]
  · have hoff := h.resolve_left hs
    have hfail := (firstFault_of_kind (curveTests_kind s i)).resolve_left fun hp => (curveTests_pass s i).mp hp hoff
    rw [firstFault_append_of_pass ((sourceTests_pass s i).mpr hs), firstFault_append_of_fail hfail]

end table

/-- Settles O60: the groups of tests come in the order of R338. -/
theorem configurationAndSourceFaults : Obligations.ConfigurationAndSourceFaults := by
  unfold Obligations.ConfigurationAndSourceFaults
  exact fun s i hwf => ⟨exec_config_fault hwf, fun hc hs => exec_source_fault hwf hc (.inl hs)⟩

/-- The curve commands have no operand-field check (30_encoding R104). -/
theorem wf_of_curve_op {i : Instr} (h : 6 ≤ (rowCode i).1 / 16) : i.wf = true := by
  cases i
  case dvZero | dvCopy | dvCmp | bnDiv | recNaf | recJsf | recTnaf | recWin | recReg | fbInvSim =>
    simp [rowCode] at h
  all_goals rfl

/-- Settles O59. -/
theorem curveCommandFaults : Obligations.CurveCommandFaults := by
  unfold Obligations.CurveCommandFaults
  intro s i hlo _
  have hwf : i.wf = true := wf_of_curve_op (opOf_encode i ▸ hlo)
  exact ⟨exec_config_fault hwf, exec_source_fault hwf⟩

/-! The units (70_reset R363). -/

/-- A command of a prime unit needs it and a locked context. -/
theorem fpUp_of_configOk {s : State} {i : Instr}
    (h : (rowCode i).1 / 16 = 4 ∨ (rowCode i).1 / 16 = 6 ∨ (rowCode i).1 / 16 = 7) (hc : ConfigOk s i) : FpUp s := by
  cases i
  case fpAdd | fpSub | fpNeg | fpDbl | fpHlv | fpMul | fpSqr | fpInv | fpExp | fpSrt | fpCmp | fpConv | fpBack | fpMuln
      | epNeg | epDbl | epAdd | epNorm | epMul | epSim => exact hc
  case fpExpMonty | fpRdc | fpRdcn | fpRdcs | epMulBasic | epMulLwnaf | epMulRwnaf | epSimBasic | epSimTrick
      | epSimInter | epSimJoint => exact hc.1
  all_goals simp [rowCode] at h

/-- A command of a binary unit, and `REC.TNAF`, needs it and a locked context. -/
theorem fbUp_of_configOk {s : State} {i : Instr} (h : (rowCode i).1 / 16 = 5 ∨ (rowCode i).1 / 16 = 8 ∨
    (rowCode i).1 / 16 = 9 ∨ (rowCode i).1 = 0x32) (hc : ConfigOk s i) : FbUp s := by
  cases i
  case fbAdd | fbMul | fbSqr | fbMuln | fbRdc | fbSrt | fbTrc | fbCmp => exact hc
  case fbSlv | fbInv | fbInvSim | fbInvBasic | fbInvBinar | fbInvAlmos | fbInvExgcd | fbInvItoht | fbInvLower
      | recTnaf | ebNeg | ebDbl | ebAdd | ebNorm | ebSim => exact hc.1
  case ebFrb | ebHlv | ebMul | ebMulBasic | ebMulLwnaf | ebMulRwnaf | ebMulLodah | ebMulHalve | ebSimBasic | ebSimTrick
      | ebSimInter | ebSimJoint => exact hc.1.1
  all_goals simp [rowCode] at h

/-- Settles O18: what `ConfigOk` asks of these commands holds the unit and `INIT`. -/
theorem unitsNeedContext : Obligations.UnitsNeedContext := by
  unfold Obligations.UnitsNeedContext
  intro i s hwf
  have hdown {has init : Bool} (h : has = false ∨ init = false) : ¬(has = true ∧ init = true) := by
    rintro ⟨rfl, rfl⟩
    exact h.elim nofun nofun
  refine ⟨fun hop h => exec_config_fault hwf fun hc => hdown h (fpUp_of_configOk (opOf_encode i ▸ hop) hc),
    fun hop h => exec_config_fault hwf fun hc => hdown h (fbUp_of_configOk (opOf_encode i ▸ hop) hc)⟩

end Sys2Proof.Proofs.Faults
end

section
/-! PROOFS. The frame of a completed command (30_encoding R101): a write of one register, and the commands whose
whole effect that is; the compare commands and the flags (10_state R40). -/

set_option Elab.async false

namespace Sys2Proof.Proofs.Frames

open Sys2Proof.Machine Sys2Proof.Laws Sys2Proof.Proofs.Exec Sys2Proof.Proofs.Faults

/-! One register is written. -/

section oneRegister

variable (s : State) (rd : Reg)

theorem frame_of_untouched {s u : State} (h : Untouched s u) {ws : List File} (hf : ∀ f, f ∉ ws → SameFile s u f) :
    Frame s (finish u) ws where
  status := by simp [finish, h.status]
  err := h.err
  ctx := h.ctx
  running := rfl
  build := h.build
  inbox := h.inbox
  held := h.held
  reply := h.reply
  files := fun f hn => by have := hf f hn; cases f <;> exact this

/-- A file that is not the one written is the same. -/
theorem sameFile_of_ne {s u : State} {w : File} (h : ∀ f, f ≠ w → SameFile s u f) : ∀ f, f ∉ [w] → SameFile s u f :=
  fun f hf => h f fun he => hf (he ▸ List.mem_singleton_self w)

theorem onlyN_set (x : BigReg) : OnlyN s (finish { s with n := s.n.set rd x }) rd := by
  refine ⟨frame_of_untouched ?_ (sameFile_of_ne fun f hf => ?_), rfl,
    fun r hr => getElem_set_other rd r _ _ hr⟩
  · exact ⟨rfl, rfl, rfl, rfl, rfl, rfl, rfl, rfl⟩
  · cases f <;> first | rfl | exact absurd rfl hf

theorem onlyFp_set (x : Nat) : OnlyFp s (finish { s with fp := s.fp.set rd x }) rd := by
  refine ⟨frame_of_untouched ?_ (sameFile_of_ne fun f hf => ?_), rfl,
    fun r hr => getElem_set_other rd r _ _ hr⟩
  · exact ⟨rfl, rfl, rfl, rfl, rfl, rfl, rfl, rfl⟩
  · cases f <;> first | rfl | exact absurd rfl hf

theorem onlyFb_set (x : Nat) : OnlyFb s (finish { s with fb := s.fb.set rd x }) rd := by
  refine ⟨frame_of_untouched ?_ (sameFile_of_ne fun f hf => ?_), rfl,
    fun r hr => getElem_set_other rd r _ _ hr⟩
  · exact ⟨rfl, rfl, rfl, rfl, rfl, rfl, rfl, rfl⟩
  · cases f <;> first | rfl | exact absurd rfl hf

theorem onlyDv_set (x : Nat) : OnlyDv s (finish { s with dv := s.dv.set rd x }) rd := by
  refine ⟨frame_of_untouched ?_ (sameFile_of_ne fun f hf => ?_), rfl,
    fun r hr => getElem_set_other rd r _ _ hr⟩
  · exact ⟨rfl, rfl, rfl, rfl, rfl, rfl, rfl, rfl⟩
  · cases f <;> first | rfl | exact absurd rfl hf

theorem onlyEp_set (x : PointReg) : OnlyEp s (finish { s with ep := s.ep.set rd x }) rd := by
  refine ⟨frame_of_untouched ?_ (sameFile_of_ne fun f hf => ?_), rfl,
    fun r hr => getElem_set_other rd r _ _ hr⟩
  · exact ⟨rfl, rfl, rfl, rfl, rfl, rfl, rfl, rfl⟩
  · cases f <;> first | rfl | exact absurd rfl hf

theorem onlyEb_set (x : PointReg) : OnlyEb s (finish { s with eb := s.eb.set rd x }) rd := by
  refine ⟨frame_of_untouched ?_ (sameFile_of_ne fun f hf => ?_), rfl,
    fun r hr => getElem_set_other rd r _ _ hr⟩
  · exact ⟨rfl, rfl, rfl, rfl, rfl, rfl, rfl, rfl⟩
  · cases f <;> first | rfl | exact absurd rfl hf

theorem onlyRc_set (x : RecReg) : OnlyRc s (finish { s with rc := s.rc.set rd x }) [rd] := by
  refine ⟨frame_of_untouched ?_ (sameFile_of_ne fun f hf => ?_), rfl,
    fun r hr => getElem_set_other rd r _ _ fun he => hr (he ▸ List.mem_singleton_self rd)⟩
  · exact ⟨rfl, rfl, rfl, rfl, rfl, rfl, rfl, rfl⟩
  · cases f <;> first | rfl | exact absurd rfl hf

end oneRegister

/-! Draws of free values are outside every frame (log 2). -/

section draws

variable {s u : State} {rd : Reg} (k : Nat)

theorem Frame.drawn {ws : List File} (h : Frame s (finish u) ws) : Frame s (finish (u.drawn k)) ws :=
  { h with files := fun f hf => by have := h.files f hf; cases f <;> exact this }

theorem OnlyFp.drawn (h : OnlyFp s (finish u) rd) : OnlyFp s (finish (u.drawn k)) rd :=
  ⟨Frame.drawn k h.1, h.2⟩

theorem OnlyFb.drawn (h : OnlyFb s (finish u) rd) : OnlyFb s (finish (u.drawn k)) rd :=
  ⟨Frame.drawn k h.1, h.2⟩

theorem OnlyDv.drawn (h : OnlyDv s (finish u) rd) : OnlyDv s (finish (u.drawn k)) rd :=
  ⟨Frame.drawn k h.1, h.2⟩

theorem OnlyEp.drawn (h : OnlyEp s (finish u) rd) : OnlyEp s (finish (u.drawn k)) rd :=
  ⟨Frame.drawn k h.1, h.2⟩

theorem OnlyEb.drawn (h : OnlyEb s (finish u) rd) : OnlyEb s (finish (u.drawn k)) rd :=
  ⟨Frame.drawn k h.1, h.2⟩

theorem OnlyRc.drawn {rds : List Reg} (h : OnlyRc s (finish u) rds) : OnlyRc s (finish (u.drawn k)) rds :=
  ⟨Frame.drawn k h.1, h.2⟩

end draws

/-! The writes of the field and curve commands, the specified value or a free one. -/

section results

variable (s : State) (rd : Reg)

theorem onlyFp_putFpOr (v : Option Nat) : OnlyFp s (finish (s.putFpOr rd v)) rd := by
  obtain ⟨x, -, -, hx⟩ | hx := putFpOr_cases s rd v
  · exact hx ▸ onlyFp_set s rd _
  · exact hx ▸ OnlyFp.drawn 1 (onlyFp_set s rd _)

theorem onlyFb_putFbOr (v : Option Nat) : OnlyFb s (finish (s.putFbOr rd v)) rd := by
  obtain ⟨x, -, -, hx⟩ | hx := putFbOr_cases s rd v
  · exact hx ▸ onlyFb_set s rd _
  · exact hx ▸ OnlyFb.drawn 1 (onlyFb_set s rd _)

theorem onlyDv_putDvOr (ok : Bool) (v : Nat) : OnlyDv s (finish (s.putDvOr ok rd v)) rd := by
  cases ok
  · exact OnlyDv.drawn 1 (onlyDv_set s rd _)
  · exact onlyDv_set s rd _

theorem onlyEp_epResult (es : List PointReg) (e : Option PointReg) (k : Nat) :
    OnlyEp s (finish (s.epResult es rd e k)) rd := by
  obtain ⟨x, -, -, -, hx⟩ | hx := epResult_cases s es rd e k
  · exact hx ▸ OnlyEp.drawn k (onlyEp_set s rd _)
  · exact hx ▸ OnlyEp.drawn 4 (onlyEp_set s rd _)

theorem onlyEb_ebResult (es : List PointReg) (e : Option PointReg) (k : Nat) :
    OnlyEb s (finish (s.ebResult es rd e k)) rd := by
  obtain ⟨x, -, -, -, hx⟩ | hx := ebResult_cases s es rd e k
  · exact hx ▸ OnlyEb.drawn k (onlyEb_set s rd _)
  · exact hx ▸ OnlyEb.drawn 4 (onlyEb_set s rd _)

end results

/-! Digit vectors (40_dv R110 to R113). -/

section digitVectors

variable (s : State) (rd ra : Reg)

/-- `DV.ZERO` of a file whose unit is present completes. -/
theorem exec_dvZero {sp : Nib} (hf : spFile sp = true) (hp : spPresent s.build sp = true) :
    exec (.dvZero sp rd) s = .next (finish (s.zeroReg sp rd)) := by
  dsimp only [exec]
  refine command_completes ?_
  simp only [firstFault, needInput, needConfig, hf, hp, if_true]

/-- `DV.COPY` of a file whose unit is present completes. -/
theorem exec_dvCopy {sp : Nib} (hf : spFile sp = true) (hp : spPresent s.build sp = true) :
    exec (.dvCopy sp rd ra) s = .next (finish (s.copyReg sp rd ra)) := by
  dsimp only [exec]
  refine command_completes ?_
  simp only [firstFault, needInput, needConfig, hf, hp, if_true]

theorem spPresent_fp {b : Build} (h : b.hasFp = true) : spPresent b 5 = true ∧ spPresent b 7 = true :=
  ⟨h, h⟩

theorem spPresent_fb {b : Build} (h : b.hasFb = true) : spPresent b 6 = true ∧ spPresent b 8 = true :=
  ⟨h, h⟩

theorem holds_zero (b : Build) : (RecReg.zero b).holds [] :=
  ⟨rfl, nofun, fun i _ => by simp [RecReg.zero]⟩

end digitVectors

/-- The configuration of a digit-vector command (40_dv R110). -/
theorem not_configOk_dv {s : State} {sp : Nib} (h : (sp = 5 ∨ sp = 7) ∧ s.build.hasFp = false ∨
    (sp = 6 ∨ sp = 8) ∧ s.build.hasFb = false) : spPresent s.build sp = false := by
  rw [← Bool.not_eq_true, spPresent_iff]
  rintro ⟨hfp, hfb⟩
  obtain ⟨hsp, hn⟩ | ⟨hsp, hn⟩ := h
  · exact absurd (hn ▸ hfp hsp) nofun
  · exact absurd (hn ▸ hfb hsp) nofun

/-- Settles O24: one register is set, to zero or to the source. -/
theorem dvZeroAndCopy : Obligations.DvZeroAndCopy := by
  unfold Obligations.DvZeroAndCopy
  intro s rd ra
  have hget {α : Type} (v : Vector α 16) (x : α) : (v.set rd x)[rd] = x := getElem_set_same rd v x
  refine ⟨?_, ?_, ?_, fun h => ?_, fun h => ?_, fun h => ?_, fun h => ?_, ?_, ?_, ?_, fun h => ?_, fun h => ?_,
    fun h => ?_, fun h => ?_, fun sp h => ?absent⟩
  · exact ⟨_, exec_dvZero s rd rfl rfl, hget _ _, onlyDv_set s rd _⟩
  · exact ⟨_, exec_dvZero s rd rfl rfl, hget _ _, onlyN_set s rd _⟩
  · exact ⟨_, exec_dvZero s rd rfl rfl, (hget s.rc (RecReg.zero s.build)).symm ▸ holds_zero s.build, onlyRc_set s rd _⟩
  · exact ⟨_, exec_dvZero s rd rfl h, hget _ _, onlyFp_set s rd _⟩
  · exact ⟨_, exec_dvZero s rd rfl h, hget _ _, onlyFb_set s rd _⟩
  · exact ⟨_, exec_dvZero s rd rfl h, hget _ _, onlyEp_set s rd _⟩
  · exact ⟨_, exec_dvZero s rd rfl h, hget _ _, onlyEb_set s rd _⟩
  · exact ⟨_, exec_dvCopy s rd ra rfl rfl, hget _ _, onlyDv_set s rd _⟩
  · exact ⟨_, exec_dvCopy s rd ra rfl rfl, hget _ _, onlyN_set s rd _⟩
  · exact ⟨_, exec_dvCopy s rd ra rfl rfl, hget _ _, onlyRc_set s rd _⟩
  · exact ⟨_, exec_dvCopy s rd ra rfl h, hget _ _, onlyFp_set s rd _⟩
  · exact ⟨_, exec_dvCopy s rd ra rfl h, hget _ _, onlyFb_set s rd _⟩
  · exact ⟨_, exec_dvCopy s rd ra rfl h, hget _ _, onlyEp_set s rd _⟩
  · exact ⟨_, exec_dvCopy s rd ra rfl h, hget _ _, onlyEb_set s rd _⟩
  case absent =>
    have hfile : spFile sp = true := by rcases h with ⟨rfl | rfl, -⟩ | ⟨rfl | rfl, -⟩ <;> rfl
    have hp := not_configOk_dv h
    constructor
    all_goals
      dsimp only [exec]
      refine command_faults ?_
      simp only [firstFault, needInput, needConfig, hfile, hp, if_true, Bool.false_eq_true, if_false]

end Sys2Proof.Proofs.Frames
end

section
/-! PROOFS. `FLAGS` (10_state R40): the compare commands, and that every command computes the same whatever the
flags are. -/

set_option Elab.async false

namespace Sys2Proof.Proofs.FlagsRegister

open Sys2Proof.Machine Sys2Proof.Laws Sys2Proof.Proofs.Exec Sys2Proof.Proofs.Faults Sys2Proof.Proofs.Frames
  Sys2Proof.Proofs.Exceptions

/-! The compare commands. -/

theorem cmpIs_compareNat (a b : Nat) : CmpIs (compareNat a b) a b := by
  unfold compareNat
  refine ⟨fun h => if_pos h, fun h => ?_, fun h => ?_⟩
  · rw [if_neg h.ne, if_pos h]
  · rw [if_neg h.ne', if_neg h.not_gt]

theorem onlyFlags_setCmp (s : State) (v : CmpResult) : OnlyFlags s (finish (s.setCmp v)) :=
  frame_of_untouched (Wrote.same.setCmp v).untouched fun f _ => by cases f <;> rfl

theorem onlyFlags_setT (s : State) (v : Bool) : OnlyFlags s (finish (s.setT v)) :=
  frame_of_untouched (Wrote.same.setT v).untouched fun f _ => by cases f <;> rfl

theorem onlyFlags_setCmpOr (s : State) (ok : Bool) (v : CmpResult) : OnlyFlags s (finish (s.setCmpOr ok v)) := by
  cases ok
  · exact Frame.drawn 1 (onlyFlags_setCmp s _)
  · exact onlyFlags_setCmp s v

theorem flagT_setCmpOr (s : State) (ok : Bool) (v : CmpResult) : (s.setCmpOr ok v).flags.t = s.flags.t := by
  cases ok <;> rfl

/-- `DV.CMP` of a file whose unit is present. -/
theorem exec_dvCmp (s : State) (ra rb : Reg) {sp : Nib} (hf : spCompared sp = true)
    (hp : spPresent s.build sp = true) : ∃ t, exec (.dvCmp sp ra rb) s = .next t ∧
      CmpIs t.flags.cmp (s.fileValue sp ra) (s.fileValue sp rb) ∧ t.flags.t = s.flags.t ∧ OnlyFlags s t := by
  refine ⟨finish (s.setCmp (compareNat (s.fileValue sp ra) (s.fileValue sp rb))), ?_, cmpIs_compareNat _ _, rfl,
    onlyFlags_setCmp s _⟩
  dsimp only [exec]
  refine command_completes ?_
  simp only [firstFault, needInput, needConfig, hf, hp, if_true]

theorem exec_dvCmp_absent (s : State) (ra rb : Reg) {sp : Nib} (hf : spCompared sp = true)
    (hp : spPresent s.build sp = false) :
    exec (.dvCmp sp ra rb) s = .next (takeFault .noValidConfig 0x12 s) := by
  dsimp only [exec]
  refine command_faults ?_
  simp only [firstFault, needInput, needConfig, hf, hp, if_true, Bool.false_eq_true, if_false]

/-- Settles O25. -/
theorem compareCommands : Obligations.CompareCommands := by
  unfold Obligations.CompareCommands
  intro s ra rb
  refine ⟨exec_dvCmp s ra rb rfl rfl, exec_dvCmp s ra rb rfl rfl, fun h => exec_dvCmp s ra rb rfl h,
    fun h => exec_dvCmp s ra rb rfl h, fun hready ha hb => ?fp, fun hready ha hb => ?fb,
    fun h => exec_dvCmp_absent s ra rb rfl h, fun h => exec_dvCmp_absent s ra rb rfl h⟩
  case fp =>
    refine ⟨finish (s.setCmpOr (fpTrue s) (compareNat s.fp[ra] s.fp[rb])), ?_, flagT_setCmpOr s _ _,
      onlyFlags_setCmpOr s _ _, fun hp => ?_⟩
    · dsimp only [exec]
      refine command_completes ?_
      simp only [firstFault, fpChecks, needInput, needConfig, fpCanon, hready, decide_eq_true ha, decide_eq_true hb,
        List.map, if_true]
    · rw [fpTrue_of_prime hp]
      exact cmpIs_compareNat _ _
  case fb =>
    refine ⟨finish (s.setCmpOr (fbTrue s) (compareNat s.fb[ra] s.fb[rb])), ?_, flagT_setCmpOr s _ _,
      onlyFlags_setCmpOr s _ _, fun hf => ?_⟩
    · dsimp only [exec]
      refine command_completes ?_
      simp only [firstFault, fbChecks, needInput, needConfig, fbCanon, hready, decide_eq_true ha, decide_eq_true hb,
        List.map, if_true]
    · rw [fbTrue_of_fieldPoly hf]
      exact cmpIs_compareNat _ _

/-! No command reads the flags. -/

/-- The state with other flags. -/
def withFlags (f : Flags) (s : State) : State := { s with flags := f }

/-- The commands that write `FLAGS.CMP` (10_state R40). -/
def writesCmp : Instr → Bool
  | .dvCmp .. | .fpCmp .. | .fbCmp .. => true
  | _ => false

/-- The commands that write `FLAGS.T` (10_state R40). -/
def writesT : Instr → Bool
  | .fbTrc .. | .fpSrt .. => true
  | _ => false

/-- The flags that are `f` but where the instruction writes, and there those of `g`. -/
def merged (i : Instr) (f g : Flags) : Flags :=
  ⟨if writesCmp i then g.cmp else f.cmp, if writesT i then g.t else f.t⟩

/-! The three parts of `CTX.INIT`'s writes (47_sys R322). -/

/-- The derived registers of the prime side. -/
def derived (s : State) : State := if s.build.hasFp then { s with ctx := deriveFp s.build s.ctx } else s

/-- The constants of the tau-adic recoding. -/
def tauDrawn (s : State) : State :=
  if s.build.hasFb && s.ctx.ebFlags.kbltz then
    { s with ctx := { s.ctx with tnaf := ⟨s.draw 0, s.draw 1, s.draw 2⟩ } }.drawn 3
  else s

/-- The fixed-base table. -/
def tableDrawn (s : State) : State :=
  if s.build.hasFbt then { s with ctx := { s.ctx with fbt := some (s.draw 0) } }.drawn 1 else s

theorem ctxInitWrites_stages (s : State) : ctxInitWrites s =
    { tableDrawn (tauDrawn (derived s)) with
      status := { (tableDrawn (tauDrawn (derived s))).status with init := true } } := rfl

section blind

variable (f : Flags) (s : State) (rd : Reg)

theorem putFpOr_withFlags (v : Option Nat) : (withFlags f s).putFpOr rd v = withFlags f (s.putFpOr rd v) := by
  show (match given (fpTrue s) v with | some v => _ | none => _) = _
  unfold State.putFpOr
  cases given (fpTrue s) v <;> rfl

theorem putFbOr_withFlags (v : Option Nat) : (withFlags f s).putFbOr rd v = withFlags f (s.putFbOr rd v) := by
  show (match given (fbTrue s) v with | some v => _ | none => _) = _
  unfold State.putFbOr
  cases given (fbTrue s) v <;> rfl

theorem putDvOr_withFlags (ok : Bool) (v : Nat) :
    (withFlags f s).putDvOr ok rd v = withFlags f (s.putDvOr ok rd v) := by
  cases ok <;> rfl

theorem epResult_withFlags (es : List PointReg) (e : Option PointReg) (k : Nat) :
    (withFlags f s).epResult es rd e k = withFlags f (s.epResult es rd e k) := by
  show (match given (es.all (epOn s) && epTrue s) e with | some v => _ | none => _) = _
  unfold State.epResult
  cases given (es.all (epOn s) && epTrue s) e <;> rfl

theorem ebResult_withFlags (es : List PointReg) (e : Option PointReg) (k : Nat) :
    (withFlags f s).ebResult es rd e k = withFlags f (s.ebResult es rd e k) := by
  show (match given (es.all (ebOn s) && ebTrue s) e with | some v => _ | none => _) = _
  unfold State.ebResult
  cases given (es.all (ebOn s) && ebTrue s) e <;> rfl

theorem zeroReg_withFlags (sp : Nib) : (withFlags f s).zeroReg sp rd = withFlags f (s.zeroReg sp rd) := by
  unfold State.zeroReg
  split <;> rfl

theorem copyReg_withFlags (sp : Nib) (ra : Reg) :
    (withFlags f s).copyReg sp rd ra = withFlags f (s.copyReg sp rd ra) := by
  unfold State.copyReg
  split <;> rfl

theorem putFbRange_withFlags (vs : List Nat) : ∀ (s : State) (rd : Reg),
    (withFlags f s).putFbRange rd vs = withFlags f (s.putFbRange rd vs) := by
  induction vs with
  | nil => exact fun _ _ => rfl
  | cons v vs ih => exact fun s rd => ih (s.putFb rd v) (rd + 1)

theorem setCmpOr_withFlags (ok : Bool) (v : CmpResult) : (withFlags f s).setCmpOr ok v =
    withFlags ⟨(s.setCmpOr ok v).flags.cmp, f.t⟩ (s.setCmpOr ok v) := by
  cases ok <;> rfl

theorem derived_withFlags : derived (withFlags f s) = withFlags f (derived s) := by
  show (if s.build.hasFp then _ else _) = withFlags f (if s.build.hasFp then _ else _)
  cases s.build.hasFp <;> rfl

theorem tauDrawn_withFlags : tauDrawn (withFlags f s) = withFlags f (tauDrawn s) := by
  show (if s.build.hasFb && s.ctx.ebFlags.kbltz then _ else _) =
    withFlags f (if s.build.hasFb && s.ctx.ebFlags.kbltz then _ else _)
  cases s.build.hasFb && s.ctx.ebFlags.kbltz <;> rfl

theorem tableDrawn_withFlags : tableDrawn (withFlags f s) = withFlags f (tableDrawn s) := by
  show (if s.build.hasFbt then _ else _) = withFlags f (if s.build.hasFbt then _ else _)
  cases s.build.hasFbt <;> rfl

theorem ctxInitWrites_withFlags : ctxInitWrites (withFlags f s) = withFlags f (ctxInitWrites s) := by
  rw [ctxInitWrites_stages, ctxInitWrites_stages, derived_withFlags, tauDrawn_withFlags, tableDrawn_withFlags]
  rfl

theorem ladderFp_withFlags (e t : Nat) : ∀ r0 r1 : Nat,
    (withFlags f s).ladderFp e t r0 r1 = s.ladderFp e t r0 r1 := by
  induction t with
  | zero => exact fun _ _ => rfl
  | succ t ih =>
    intro r0 r1
    unfold State.ladderFp
    rw [ih, ih]
    rfl

theorem powFp_withFlags (v : FpExp) (e : Nat) : (withFlags f s).powFp v e = s.powFp v e := by
  funext a
  cases v
  · rfl
  · exact ladderFp_withFlags f s _ _ _ _

end blind

/-- A command is one of its row's `op` whose tests do not see the flags and whose writes see them nowhere but in
the flags that they leave. -/
theorem exec_flags (i : Instr) (s : State) : ∃ cs writes, exec i s = command (rowCode i).1 cs writes s ∧
    (∀ f, exec i (withFlags f s) = command (rowCode i).1 cs writes (withFlags f s)) ∧
    ∀ f, writes (withFlags f s) = withFlags (merged i f (writes s).flags) (writes s) := by
  cases i
  all_goals
    dsimp only [exec]
    refine ⟨_, _, rfl, fun _ => rfl, fun f => ?_⟩
  case ctxInit => exact ctxInitWrites_withFlags f s
  case dvZero sp rd => exact zeroReg_withFlags f s rd sp
  case dvCopy sp rd ra => exact copyReg_withFlags f s rd sp ra
  case fpSrt rd ra =>
    show (match given (fpTrue s) (sqrtMod s.ctx.fpP (s.valFp s.fp[ra])) with | some _ => _ | none => _) = _
    cases given (fpTrue s) (sqrtMod s.ctx.fpP (s.valFp s.fp[ra])) with
    | some y => rfl
    | none =>
      show (if fpTrue s && isNonSquare s.ctx.fpP (s.valFp s.fp[ra]) then _ else _) = _
      cases fpTrue s && isNonSquare s.ctx.fpP (s.valFp s.fp[ra])
      all_goals rfl
  case fbTrc ra =>
    show (match given (fbTrue s) (fbTraceBit s.build.m (fbPoly s) s.fb[ra]) with | some _ => _ | none => _) = _
    cases given (fbTrue s) (fbTraceBit s.build.m (fbPoly s) s.fb[ra])
    all_goals rfl
  case fbInvSim rd ra cnt =>
    show (match given (fbTrue s) (s.invFb s.build.fbInv
      ((simProducts s.build.m (fbPoly s) (s.fbRange ra (cnt.val + 1)) 1).getLastD 0)) with
        | some _ => _ | none => _) = _
    dsimp only
    cases given (fbTrue s) (s.invFb s.build.fbInv
      ((simProducts s.build.m (fbPoly s) (s.fbRange ra (cnt.val + 1)) 1).getLastD 0)) with
    | some t => exact putFbRange_withFlags f _ s rd
    | none => exact congrArg (fun u : State => u.drawn (cnt.val + 1)) (putFbRange_withFlags f _ s rd)
  case fpExp | fpExpMonty =>
    rw [powFp_withFlags]
    exact putFpOr_withFlags f s _ _
  case fpCmp | fbCmp => exact setCmpOr_withFlags f s _ _
  case fpMuln | fbMuln => exact putDvOr_withFlags f s _ _ _
  case fpAdd | fpSub | fpNeg | fpDbl | fpHlv | fpMul | fpSqr | fpInv | fpConv | fpBack
      | fpRdc | fpRdcn | fpRdcs =>
    exact putFpOr_withFlags f s _ _
  case fbAdd | fbMul | fbSqr | fbRdc | fbSrt | fbSlv | fbInv | fbInvBasic | fbInvBinar | fbInvAlmos | fbInvExgcd
      | fbInvItoht | fbInvLower =>
    exact putFbOr_withFlags f s _ _
  case epNeg | epDbl | epAdd | epNorm | epMul | epMulBasic | epMulLwnaf | epMulRwnaf | epSim | epSimBasic
      | epSimTrick | epSimInter | epSimJoint =>
    exact epResult_withFlags f s _ _ _ _
  case ebNeg | ebDbl | ebAdd | ebNorm | ebFrb | ebHlv | ebMul | ebMulBasic | ebMulLwnaf | ebMulRwnaf | ebMulLodah
      | ebMulHalve | ebSim | ebSimBasic | ebSimTrick | ebSimInter | ebSimJoint =>
    exact ebResult_withFlags f s _ _ _ _
  all_goals rfl

theorem merged_cmp {i : Instr} {f g : Flags} (h : writesCmp i = false) : (merged i f g).cmp = f.cmp := by
  simp [merged, h]

theorem merged_t {i : Instr} {f g : Flags} (h : writesT i = false) : (merged i f g).t = f.t := by
  simp [merged, h]

theorem writesCmp_eq_true {i : Instr} : writesCmp i = true ↔
    (∃ sp ra rb, i = .dvCmp sp ra rb) ∨ (∃ ra rb, i = .fpCmp ra rb) ∨ ∃ ra rb, i = .fbCmp ra rb := by
  cases i <;> simp [writesCmp]

theorem writesT_eq_true {i : Instr} : writesT i = true ↔ (∃ ra, i = .fbTrc ra) ∨ ∃ rd ra, i = .fpSrt rd ra := by
  cases i <;> simp [writesT]

/-- What a command leaves from the same state with the flags `f`: on completion `f` but for the flags it writes, on
a fault `f`. -/
theorem exec_withFlags {i : Instr} {s t : State} (h : exec i s = .next t) (f : Flags) :
    (t.status.done = true ∧ exec i (withFlags f s) = .next (withFlags (merged i f t.flags) t)) ∨
      (t.status.done = false ∧ t.flags = s.flags ∧ exec i (withFlags f s) = .next (withFlags f t)) := by
  obtain ⟨cs, writes, hs, hf, hw⟩ := exec_flags i s
  obtain ⟨hpass, rfl⟩ | ⟨k, hk, rfl⟩ := command_cases (hs ▸ h)
  · refine .inl ⟨rfl, ?_⟩
    rw [hf, command_completes hpass, hw]
    rfl
  · refine .inr ⟨rfl, rfl, ?_⟩
    rw [hf, command_faults hk]
    rfl

/-- Settles O16. -/
theorem flagsAreResultsOnly : Obligations.FlagsAreResultsOnly := by
  unfold Obligations.FlagsAreResultsOnly
  intro i s t h
  -- With the flags that it finds, the command leaves what it leaves.
  have hown : (t.status.done = true ∧ t.flags = merged i s.flags t.flags) ∨
      (t.status.done = false ∧ t.flags = s.flags) := by
    obtain ⟨hd, he⟩ | ⟨hd, hsame, -⟩ := exec_withFlags h s.flags
    · exact .inl ⟨hd, congrArg State.flags (Host.Outcome.next.inj (h.symm.trans he))⟩
    · exact .inr ⟨hd, hsame⟩
  refine ⟨fun hdv hfp hfb => ?cmp, fun htrc hsrt => ?t, fun hd => ?fault, fun f => ?blind⟩
  case cmp =>
    have hno : writesCmp i = false := by
      rw [← Bool.not_eq_true, writesCmp_eq_true]
      rintro (⟨sp, ra, rb, hi⟩ | ⟨ra, rb, hi⟩ | ⟨ra, rb, hi⟩)
      exacts [hdv sp ra rb hi, hfp ra rb hi, hfb ra rb hi]
    obtain ⟨-, he⟩ | ⟨-, he⟩ := hown
    · rw [he, merged_cmp hno]
    · rw [he]
  case t =>
    have hno : writesT i = false := by
      rw [← Bool.not_eq_true, writesT_eq_true]
      rintro (⟨ra, hi⟩ | ⟨rd, ra, hi⟩)
      exacts [htrc ra hi, hsrt rd ra hi]
    obtain ⟨-, he⟩ | ⟨-, he⟩ := hown
    · rw [he, merged_t hno]
    · rw [he]
  case fault =>
    obtain ⟨hd', -⟩ | ⟨-, he⟩ := hown
    · exact absurd (hd'.symm.trans hd) (by decide)
    · exact he
  case blind =>
    obtain ⟨hd, he⟩ | ⟨hd, -, he⟩ := exec_withFlags h f
    · refine ⟨_, he, rfl, fun _ => ⟨fun hi => ?_, fun hi => ?_⟩⟩
      · show (if writesCmp i then t.flags.cmp else f.cmp) = t.flags.cmp
        rw [if_pos (writesCmp_eq_true.mpr hi)]
      · show (if writesT i then t.flags.t else f.t) = t.flags.t
        rw [if_pos (writesT_eq_true.mpr hi)]
    · exact ⟨_, he, rfl, fun hd' => absurd (hd'.symm.trans hd) (by decide)⟩

end Sys2Proof.Proofs.FlagsRegister
end

section
/-! PROOFS. The integer commands (41_bn R120 to R131): exact results, or a fault. -/

set_option Elab.async false

namespace Sys2Proof.Proofs.Integers

open Sys2Proof.Machine Sys2Proof.Laws Sys2Proof.Proofs.Faults Sys2Proof.Proofs.Frames
  Sys2Proof.Proofs.Exec Sys2Proof.Proofs.Exceptions

/-! Sign and magnitude. -/

theorem natAbs_val (r : BigReg) : r.val.natAbs = r.mag := by
  unfold BigReg.val
  cases r.sign <;> simp

theorem val_eq_zero {r : BigReg} : r.val = 0 ↔ r.mag = 0 := by rw [← Int.natAbs_eq_zero, natAbs_val]

/-- A canonical register is the one that `putN` writes for its value. -/
theorem eq_of_canon {r : BigReg} (h : r ≠ ⟨true, 0⟩) : r = ⟨decide (r.val < 0), r.val.natAbs⟩ := by
  obtain ⟨sign, mag⟩ := r
  cases sign
  · simp [BigReg.val]
  · have hm : 0 < mag := Nat.pos_of_ne_zero fun h0 => h (by rw [h0])
    simp [BigReg.val, hm]

theorem val_neg_iff {r : BigReg} (h : r ≠ ⟨true, 0⟩) : r.val < 0 ↔ r.sign = true := by
  conv_rhs => rw [eq_of_canon h]
  simp

section write

variable (s : State) (rd : Reg) {x : Int}

theorem onlyN_putN (x : Int) : OnlyN s (finish (s.putN rd x)) rd := onlyN_set s rd _

/-- A value that fits is held exactly, in its canonical form (41_bn R121). -/
theorem putN_eq (hx : x.natAbs < 2 ^ (s.build.W * s.build.bnDigs)) :
    (s.putN rd x).n[rd] = ⟨decide (x < 0), x.natAbs⟩ := by
  rw [putN_same, digits_of_lt hx]

theorem val_mk (x : Int) : (⟨decide (x < 0), x.natAbs⟩ : BigReg).val = x := by
  unfold BigReg.val
  by_cases h : x < 0
  · simp only [h, decide_true, if_true]
    omega
  · simp only [h, decide_false, Bool.false_eq_true, if_false]
    omega

theorem canon_mk (x : Int) : (⟨decide (x < 0), x.natAbs⟩ : BigReg) ≠ ⟨true, 0⟩ := by
  intro h
  injection h with hsign hmag
  have : x < 0 := of_decide_eq_true hsign
  omega

theorem putN_val (hx : x.natAbs < 2 ^ (s.build.W * s.build.bnDigs)) : (s.putN rd x).n[rd].val = x := by
  rw [putN_eq s rd hx, val_mk]

theorem putN_canon (hx : x.natAbs < 2 ^ (s.build.W * s.build.bnDigs)) : (s.putN rd x).n[rd] ≠ ⟨true, 0⟩ := by
  rw [putN_eq s rd hx]
  exact canon_mk x

end write

/-! The tests of an integer command. -/

theorem needFit_iff {b : Build} {r : Int} : (needFit b r).ok = true ↔ r.natAbs < 2 ^ (b.W * b.bnDigs) :=
  decide_eq_true_iff

/-- The tests of an exact command: its sources `srcs`, then that `r` fits. -/
def exactChecks (b : Build) (srcs : List BigReg) (r : Int) : List Check :=
  srcs.map (fun x => needInput x.canon) ++ [needFit b r]

section exact

variable {s : State} {op : Nat} {srcs : List BigReg} {r : Int} {rd : Reg} {w : State → State}

theorem sources_fail (h : ∃ x ∈ srcs, x = ⟨true, 0⟩) :
    firstFault (srcs.map fun x => needInput x.canon) = some .invalidInput := by
  obtain ⟨x, hx, rfl⟩ := h
  exact firstFault_eq (List.forall_mem_map.mpr fun _ _ _ => rfl) ⟨_, List.mem_map_of_mem hx, rfl⟩

theorem sources_pass (h : ∀ x ∈ srcs, x ≠ ⟨true, 0⟩) : firstFault (srcs.map fun x => needInput x.canon) = none :=
  (firstFault_eq_none _).mpr (List.forall_mem_map.mpr fun x hx => (canon_iff x).mpr (h x hx))

/-- The three ends of an exact command (41_bn R120, R121). -/
theorem exact_command (hw : w s = s.putN rd r) :
    ((∃ x ∈ srcs, x = ⟨true, 0⟩) →
      command op (exactChecks s.build srcs r) w s = .next (takeFault .invalidInput op s)) ∧
    ((∀ x ∈ srcs, x ≠ ⟨true, 0⟩) → 2 ^ (s.build.W * s.build.bnDigs) ≤ r.natAbs →
      command op (exactChecks s.build srcs r) w s = .next (takeFault .precisionExceeded op s)) ∧
    ((∀ x ∈ srcs, x ≠ ⟨true, 0⟩) → r.natAbs < 2 ^ (s.build.W * s.build.bnDigs) →
      ∃ t, command op (exactChecks s.build srcs r) w s = .next t ∧ t.n[rd] = ⟨decide (r < 0), r.natAbs⟩ ∧
        OnlyN s t rd) := by
  refine ⟨fun h => command_faults ?_, fun h hr => command_faults ?_, fun h hr => ?_⟩
  · exact firstFault_append_of_fail (sources_fail h)
  · rw [exactChecks, firstFault_append_of_pass (sources_pass h)]
    exact if_neg (mt needFit_iff.mp hr.not_gt)
  · refine ⟨finish (s.putN rd r), ?_, putN_eq s rd hr, onlyN_putN s rd r⟩
    rw [command_completes, hw]
    rw [exactChecks, firstFault_append_of_pass (sources_pass h)]
    exact if_pos (needFit_iff.mpr hr)

end exact

/-- The rows of 41_bn R123 to R126 are exact commands. -/
theorem exec_exact {s : State} {rd ra rb : Reg} {i : Instr} {r : Int} {srcs : List BigReg}
    (hi : (i, r, srcs) = (.bnAdd rd ra rb, s.n[ra].val + s.n[rb].val, [s.n[ra], s.n[rb]]) ∨
      (i, r, srcs) = (.bnSub rd ra rb, s.n[ra].val - s.n[rb].val, [s.n[ra], s.n[rb]]) ∨
      (i, r, srcs) = (.bnMul rd ra rb, s.n[ra].val * s.n[rb].val, [s.n[ra], s.n[rb]]) ∨
      (i, r, srcs) = (.bnSqr rd ra, s.n[ra].val ^ 2, [s.n[ra]])) :
    ∃ w, exec i s = command (rowCode i).1 (exactChecks s.build srcs r) w s ∧ w s = s.putN rd r := by
  obtain h | h | h | h := hi
  case inr.inr.inr =>
    simp only [Prod.mk.injEq] at h
    obtain ⟨rfl, rfl, rfl⟩ := h
    rw [pow_two]
    dsimp only [exec]
    exact ⟨_, rfl, rfl⟩
  all_goals
    simp only [Prod.mk.injEq] at h
    obtain ⟨rfl, rfl, rfl⟩ := h
    dsimp only [exec]
    exact ⟨_, rfl, rfl⟩

/-- Settles O26. -/
theorem bnExactResults : Obligations.BnExactResults := by
  unfold Obligations.BnExactResults
  intro s rd ra rb i r srcs hi
  obtain ⟨w, hcommand, hw⟩ := exec_exact hi
  rw [hcommand, opOf_encode]
  obtain ⟨hbad, hlong, hfits⟩ := exact_command (op := (rowCode i).1) (srcs := srcs) hw
  refine ⟨hbad, hlong, fun h hr => ?_⟩
  obtain ⟨t, ht, hn, honly⟩ := hfits h hr
  exact ⟨t, ht, by rw [hn, val_mk], by rw [hn]; exact canon_mk r, honly⟩

/-! Division. -/

theorem tmod_sign (a b : Int) : a.tmod b = 0 ∨ (a.tmod b < 0 ↔ a < 0) := by
  rcases lt_or_ge a 0 with h | h
  · have hneg : 0 ≤ -(a.tmod b) := by
      rw [← Int.neg_tmod]
      exact Int.tmod_nonneg b (by omega)
    omega
  · have := Int.tmod_nonneg b h
    omega

/-- Settles O27. -/
theorem bnDivision : Obligations.BnDivision := by
  unfold Obligations.BnDivision
  intro s rd rc ra rb hfits ha hb
  have hca : s.n[ra].canon = true := (canon_iff _).mpr ha
  have hcb : s.n[rb].canon = true := (canon_iff _).mpr hb
  have hfa := hfits.n ra
  have hfb := hfits.n rb
  refine ⟨fun h0 hne => ⟨?_, ?_⟩, fun h0 hne => ?div, fun h0 => ?mod⟩
  · dsimp only [exec]
    refine command_faults ?_
    simp only [firstFault, needInput, hca, hcb, h0, beq_eq_false_iff_ne.mpr hne, Bool.not_false, Bool.not_true, if_true,
      beq_self_eq_true, Bool.false_eq_true, if_false]
  · dsimp only [exec]
    refine command_faults ?_
    simp only [firstFault, needInput, hca, hcb, h0, Bool.not_true, if_true,
      beq_self_eq_true, Bool.false_eq_true, if_false]
  case div =>
    have hpos : 0 < s.n[rb].mag := Nat.pos_of_ne_zero fun h => h0 (val_eq_zero.mpr h)
    have hq : (s.n[ra].val.tdiv s.n[rb].val).natAbs < 2 ^ (s.build.W * s.build.bnDigs) := by
      rw [Int.natAbs_tdiv, natAbs_val, natAbs_val]
      exact (Nat.div_le_self _ _).trans_lt hfa
    have hmod : (s.n[ra].val.tmod s.n[rb].val).natAbs = s.n[ra].mag % s.n[rb].mag := by
      rw [Int.natAbs_tmod, natAbs_val, natAbs_val]
    have hr : (s.n[ra].val.tmod s.n[rb].val).natAbs < 2 ^ (s.build.W * s.build.bnDigs) :=
      hmod ▸ (Nat.mod_le _ _).trans_lt hfa
    have hrd : ((s.putN rd (s.n[ra].val.tdiv s.n[rb].val)).putN rc (s.n[ra].val.tmod s.n[rb].val)).n[rd] =
        (s.putN rd (s.n[ra].val.tdiv s.n[rb].val)).n[rd] := putN_other _ rc rd _ hne
    refine ⟨finish ((s.putN rd (s.n[ra].val.tdiv s.n[rb].val)).putN rc (s.n[ra].val.tmod s.n[rb].val)), ?_, ?_, ?_, ?_,
      ?_, ?_, ?_, rfl, fun r hrd hrc => ?_⟩
    · dsimp only [exec]
      refine command_completes ?_
      simp only [firstFault, needInput, hca, hcb, beq_eq_false_iff_ne.mpr hne, beq_eq_false_iff_ne.mpr h0,
        Bool.not_false, if_true, needFit_iff.mpr hq, needFit_iff.mpr hr]
    · rw [finish_n, hrd, putN_val s rd hq, putN_val (s.putN rd _) rc hr]
      exact (Int.tdiv_mul_add_tmod _ _).symm
    · rw [finish_n, putN_eq (s.putN rd _) rc hr]
      exact hmod ▸ Nat.mod_lt _ hpos
    · rw [finish_n, putN_val (s.putN rd _) rc hr]
      exact tmod_sign _ _
    · rw [finish_n, hrd]
      exact putN_canon s rd hq
    · exact putN_canon (s.putN rd _) rc hr
    · exact frame_of_untouched ((Wrote.same.putN rd _).putN rc _).untouched
        (sameFile_of_ne fun f hf => by cases f <;> first | rfl | exact absurd rfl hf)
    · exact (putN_other _ rc r _ hrc).trans (putN_other s rd r _ hrd)
  case mod =>
    have hpos : 0 < s.n[rb].mag := Nat.pos_of_ne_zero fun h => h0 (val_eq_zero.mpr h)
    have hnonneg : 0 ≤ s.n[ra].val % (s.n[rb].mag : Int) := Int.emod_nonneg _ (by omega)
    have hlt : s.n[ra].val % (s.n[rb].mag : Int) < s.n[rb].mag := Int.emod_lt_of_pos _ (by omega)
    have hr : (s.n[ra].val % (s.n[rb].mag : Int)).natAbs < 2 ^ (s.build.W * s.build.bnDigs) := by omega
    refine ⟨finish (s.putN rd (s.n[ra].val % (s.n[rb].mag : Int))), ?_, ?_, ?_, ?_, onlyN_putN s rd _⟩
    · dsimp only [exec]
      refine command_completes ?_
      simp only [firstFault, needInput, hca, hcb, beq_eq_false_iff_ne.mpr h0, Bool.not_false, if_true]
    · rw [finish_n, putN_val s rd hr]
      exact hnonneg
    · rw [finish_n, putN_val s rd hr]
      exact hlt
    · rw [finish_n, putN_val s rd hr, ← natAbs_val, Int.natCast_natAbs, Int.emod_abs]
      exact ⟨_, (Int.ediv_mul_add_emod _ _).symm⟩

/-! The greatest common divisor and the shifts. -/

theorem natAbs_mul_two_pow (r : BigReg) (k : Nat) : (r.val * 2 ^ k).natAbs = r.mag * 2 ^ k := by
  rw [Int.natAbs_mul, natAbs_val, Int.natAbs_pow]
  rfl

theorem natAbs_tdiv_two_pow (r : BigReg) (k : Nat) : (r.val.tdiv (2 ^ k)).natAbs = r.mag / 2 ^ k := by
  rw [Int.natAbs_tdiv, natAbs_val, Int.natAbs_pow]
  rfl

theorem mul_two_pow_neg_iff (a : Int) (k : Nat) : a * 2 ^ k < 0 ↔ a < 0 := by
  have hk : (0 : Int) < 2 ^ k := by positivity
  simp only [mul_neg_iff, hk, hk.not_gt, and_true, and_false, false_or]

theorem tdiv_two_pow_neg_iff (a : Int) (k : Nat) : a.tdiv (2 ^ k) < 0 ↔ a < 0 ∧ a.tdiv (2 ^ k) ≠ 0 := by
  have hk : (0 : Int) ≤ 2 ^ k := by positivity
  rcases lt_or_ge a 0 with h | h
  · have hneg : 0 ≤ -(a.tdiv (2 ^ k)) := by
      rw [← Int.neg_tdiv]
      exact Int.tdiv_nonneg (by omega) hk
    omega
  · have := Int.tdiv_nonneg h hk
    omega

theorem gcd_lt {a b n : Nat} (ha : a < n) (hb : b < n) : Nat.gcd a b < n := by
  rcases Nat.eq_zero_or_pos a with rfl | h
  · rwa [Nat.gcd_zero_left]
  · exact (Nat.gcd_le_left b h).trans_lt ha

/-- Settles O28. -/
theorem bnGcdAndShifts : Obligations.BnGcdAndShifts := by
  unfold Obligations.BnGcdAndShifts
  intro s rd ra rb k hfits ha
  have hca : s.n[ra].canon = true := (canon_iff _).mpr ha
  have hfa := hfits.n ra
  refine ⟨fun hb => ?gcd, fun hfit => ?lsh, fun hlong => ?long, ?rsh⟩
  case gcd =>
    have hg : (Nat.gcd s.n[ra].mag s.n[rb].mag : Int).natAbs < 2 ^ (s.build.W * s.build.bnDigs) := by
      rw [Int.natAbs_natCast]
      exact gcd_lt hfa (hfits.n rb)
    refine ⟨finish (s.putN rd (Nat.gcd s.n[ra].mag s.n[rb].mag)), ?_, ?_, onlyN_putN s rd _⟩
    · dsimp only [exec]
      refine command_completes ?_
      simp only [firstFault, needInput, hca, (canon_iff _).mpr hb, if_true]
    · rw [finish_n, putN_eq s rd hg]
      simp
  case lsh =>
    have hx : (s.n[ra].val * 2 ^ k.toNat).natAbs < 2 ^ (s.build.W * s.build.bnDigs) := by
      rwa [natAbs_mul_two_pow]
    refine ⟨finish (s.putN rd (s.n[ra].val * 2 ^ k.toNat)), ?_, ?_, onlyN_putN s rd _⟩
    · dsimp only [exec]
      refine command_completes ?_
      simp only [firstFault, needInput, hca, if_true, needFit_iff.mpr hx]
    · have hsign : s.n[ra].val * 2 ^ k.toNat < 0 ↔ s.n[ra].sign = true :=
        (mul_two_pow_neg_iff _ _).trans (val_neg_iff ha)
      rw [finish_n, putN_eq s rd hx, natAbs_mul_two_pow]
      simp only [hsign, Bool.decide_eq_true]
  case long =>
    dsimp only [exec]
    refine command_faults ?_
    have hx : ¬(needFit s.build (s.n[ra].val * 2 ^ k.toNat)).ok = true := by
      rw [needFit_iff, natAbs_mul_two_pow]
      exact hlong.not_gt
    simp only [firstFault, needInput, hca, if_true, hx]
    rfl
  case rsh =>
    have hx : (s.n[ra].val.tdiv (2 ^ k.toNat)).natAbs < 2 ^ (s.build.W * s.build.bnDigs) := by
      rw [natAbs_tdiv_two_pow]
      exact (Nat.div_le_self _ _).trans_lt hfa
    refine ⟨finish (s.putN rd (s.n[ra].val.tdiv (2 ^ k.toNat))), ?_, ?_, ?_, onlyN_putN s rd _⟩
    · dsimp only [exec]
      refine command_completes ?_
      simp only [firstFault, needInput, hca, if_true]
    · rw [finish_n, putN_eq s rd hx, natAbs_tdiv_two_pow]
    · rw [finish_n, putN_eq s rd hx, decide_eq_true_iff, ← val_neg_iff ha, Int.natAbs_ne_zero]
      exact tdiv_two_pow_neg_iff _ _

end Sys2Proof.Proofs.Integers
end

section
/-! PROOFS. The recodings (42_rec R140 to R152): the digits of the loops, and the commands that write them. -/

set_option Elab.async false

namespace Sys2Proof.Proofs.Recoding

open Sys2Proof.Machine Sys2Proof.Laws Sys2Proof.Proofs.Faults Sys2Proof.Proofs.Frames Sys2Proof.Proofs.Exec
  Sys2Proof.Proofs.Context Sys2Proof.Proofs.Exceptions Sys2Proof.Proofs.Integers

/-! What `Build.wf` says (00_scope section 3), by name. -/

/-- The constraints that proofs use. -/
structure BuildOk (b : Build) : Prop where
  width : b.W = 8 ∨ b.W = 16 ∨ b.W = 32 ∨ b.W = 64
  degree : b.m = 0 ∨ 2 ≤ b.m
  bits : b.fpBits = 0 ∨ 2 ≤ b.fpBits
  acc : b.fpDigs + 1 < 2 ^ b.W
  bn : 2 * max b.fpDigs b.fbDigs + 2 ≤ b.bnDigs
  dv : 2 * max b.fpDigs b.fbDigs ≤ b.dvDigs
  rc : b.bnDigs * b.W + 1 ≤ b.rcLen
  tnaf : b.m + b.tnafExtra ≤ b.rcLen
  epWidth : 2 ≤ b.epWidth ∧ b.epWidth ≤ 8
  ebWidth : 2 ≤ b.ebWidth ∧ b.ebWidth ≤ 8
  trickWidth : 1 ≤ b.trickWidth ∧ b.trickWidth ≤ 8
  fpRdc : b.fpRdc ∈ b.rdcSet
  fbInv : b.fbInv ∈ b.fbInvSet
  epMul : b.epMul ∈ b.epMulSet
  epSim : b.epSim ∈ b.epSimSet
  ebMul : b.ebMul ∈ b.ebMulSet
  ebSim : b.ebSim ∈ b.ebSimSet
  chain : b.hasFb = true → b.chainWf = true

theorem buildOk_of_wf {b : Build} (h : b.wf = true) : BuildOk b := by
  simp only [Build.wf, Bool.and_eq_true, Bool.or_eq_true, beq_iff_eq, decide_eq_true_iff, Bool.not_eq_true'] at h
  obtain ⟨⟨⟨⟨⟨⟨⟨⟨⟨⟨⟨⟨⟨⟨⟨⟨⟨⟨⟨⟨hW, hbits⟩, hm⟩, -⟩, hacc⟩, hbn⟩, hdv⟩, hrc⟩, htnaf⟩, -⟩, hep⟩, heb⟩, htw⟩, -⟩, hrdc⟩, hinv⟩,
    hem⟩, hes⟩, hbm⟩, hbs⟩, hchain⟩ := h
  exact
    { width := by omega, degree := hm, bits := hbits, acc := hacc, bn := hbn, dv := hdv, rc := hrc, tnaf := htnaf,
      epWidth := hep, ebWidth := heb, trickWidth := htw, fpRdc := hrdc, fbInv := hinv, epMul := hem, epSim := hes,
      ebMul := hbm, ebSim := hbs, chain := fun hfb => hchain.resolve_left (by simp [hfb]) }

theorem BuildOk.width_pos {b : Build} (h : BuildOk b) : 0 < b.W := by
  have := h.width
  omega

/-! The buffer that a recoding writes. -/

/-- A recoding that fits is held whole (42_rec R142). -/
theorem holds_ofDigits {b : Build} {ds : List Int} (h : ds.length ≤ b.rcLen) : (RecReg.ofDigits b ds).holds ds := by
  have htake : (ds.map byteOf ++ List.replicate (b.rcLen - ds.length) 0).take b.rcLen =
      ds.map byteOf ++ List.replicate (b.rcLen - ds.length) 0 :=
    List.take_of_length_le (by simp; omega)
  refine ⟨min_eq_left h, fun i hi => ?_, fun i hi => ?_⟩
  · show List.getD (List.take _ _) i 0 = _
    rw [htake, List.getD_append _ _ _ _ (by simpa using hi), List.getD_eq_getElem _ _ (by simpa using hi),
      List.getD_eq_getElem _ _ hi, List.getElem_map]
    rfl
  · show List.getD (List.take _ _) i 0 = _
    rw [htake, List.getD_append_right _ _ _ _ (by simpa using hi), List.getD_eq_getElem?_getD, List.getElem?_replicate]
    split <;> rfl

theorem onlyRc_putRc (s : State) (rd : Reg) (ds : List Int) : OnlyRc s (finish (s.putRc rd ds)) [rd] :=
  onlyRc_set s rd _

/-- A scalar register's bit length, with the digit that a recoding may add, fits in a buffer (42_rec R142). -/
theorem bitlen_le_rcLen {s : State} (hwf : s.build.wf = true) (hfits : Fits s) (r : Reg) :
    bitlen s.n[r].mag + 1 ≤ s.build.rcLen := by
  have hlen := bitlen_le_iff.mpr (hfits.n r)
  have hrc := (buildOk_of_wf hwf).rc
  rw [Nat.mul_comm] at hrc
  omega

/-! The tests of a recoding (42_rec R140). -/

theorem scalarChecks_pass {ks : List BigReg} (h : ∀ k ∈ ks, k.sign = false) : firstFault (scalarChecks ks) = none := by
  rw [firstFault_eq_none, scalarChecks, List.forall_mem_append, List.forall_mem_map, List.forall_mem_map]
  refine ⟨fun k hk => ?_, fun k hk => decide_eq_true ?_⟩
  · simp [needInput, BigReg.canon, h k hk]
  · simp [BigReg.val, h k hk]

theorem scalarChecks_kind (ks : List BigReg) : ∀ c ∈ scalarChecks ks, c.ok = false → c.kind = .invalidInput := by
  rw [scalarChecks, List.forall_mem_append, List.forall_mem_map, List.forall_mem_map]
  exact ⟨fun _ _ _ => rfl, fun _ _ _ => rfl⟩

/-- A scalar with its sign set, negative zero or negative, fails a test. -/
theorem scalarChecks_fail {ks : List BigReg} (h : ∃ k ∈ ks, k.sign = true) :
    ∃ c ∈ scalarChecks ks, c.ok = false := by
  obtain ⟨k, hk, hs⟩ := h
  by_cases hm : k.mag = 0
  · refine ⟨needInput k.canon, List.mem_append_left _ (List.mem_map_of_mem hk), ?_⟩
    simp [needInput, BigReg.canon, hs, hm]
  · refine ⟨needInput (decide (0 ≤ k.val)), List.mem_append_right _ (List.mem_map_of_mem hk), decide_eq_false ?_⟩
    simp only [BigReg.val, hs, if_true]
    omega

/-- Tests of which one fails, all of them raising `InvalidInput`. -/
theorem cons_scalarChecks_fail {c : Check} (hc : c.kind = .invalidInput) {ks : List BigReg}
    (h : ∃ k ∈ ks, k.sign = true) : firstFault (c :: scalarChecks ks) = some .invalidInput := by
  obtain ⟨d, hd, hfail⟩ := scalarChecks_fail h
  exact firstFault_eq (List.forall_mem_cons.mpr ⟨fun _ => hc, scalarChecks_kind ks⟩)
    ⟨d, List.mem_cons_of_mem _ hd, hfail⟩

/-- Settles O33. -/
theorem recodingFaults : Obligations.RecodingFaults := by
  unfold Obligations.RecodingFaults
  intro s rd ra rb w
  have hlegal (h2 : 2 ≤ w.val) (h8 : w.val ≤ 8) : signedWidth w = true := decide_eq_true ⟨h2, h8⟩
  refine ⟨fun h2 h8 => ?_, fun h => ?_, fun h => ⟨?_, ?_⟩, fun h => ?_, fun hready hk h => ?_, fun h2 h8 hk => ?_⟩
  all_goals
    dsimp only [exec]
    refine command_faults ?_
  · simp only [firstFault, needInput, needConfig, hlegal h2 h8, if_true, Bool.false_eq_true, if_false]
  · have hbad : signedWidth w = false := decide_eq_false (by omega)
    simp only [firstFault, needInput, hbad, Bool.false_eq_true, if_false]
  · exact cons_scalarChecks_fail rfl ⟨_, List.mem_singleton_self _, h⟩
  · exact cons_scalarChecks_fail rfl ⟨_, List.mem_singleton_self _, h⟩
  · refine cons_scalarChecks_fail rfl ?_
    obtain h | h := h
    · exact ⟨_, List.mem_cons_self, h⟩
    · exact ⟨_, List.mem_cons_of_mem _ (List.mem_singleton_self _), h⟩
  · obtain ⟨c, hc, hfail⟩ := scalarChecks_fail ⟨_, List.mem_singleton_self s.n[ra], h⟩
    refine firstFault_eq ?_ ⟨c, List.mem_append_right _ hc, hfail⟩
    rw [List.forall_mem_append]
    refine ⟨?_, scalarChecks_kind _⟩
    simp [needInput, needConfig, hready, hk]
  · refine firstFault_append_of_fail ?_
    simp only [firstFault, needInput, needConfig, hlegal h2 h8, hk, if_true, Bool.false_eq_true, if_false, ite_self]

/-! The width-w non-adjacent form (42_rec R143, R144). -/

section naf

variable {w : Nat}

theorem signedResidue_range (hw : 1 ≤ w) (k : Int) :
    -2 ^ (w - 1) < signedResidue w k ∧ signedResidue w k ≤ 2 ^ (w - 1) ∧ (2 : Int) ^ w ∣ k - signedResidue w k := by
  obtain ⟨v, rfl⟩ : ∃ v, w = v + 1 := ⟨w - 1, by omega⟩
  have hpow : (2 : Int) ^ (v + 1) = 2 * 2 ^ v := by ring
  have hpos : (0 : Int) < 2 ^ v := by positivity
  have h0 := Int.emod_nonneg k (b := 2 ^ (v + 1)) (by positivity)
  have h1 := Int.emod_lt_of_pos k (b := 2 ^ (v + 1)) (by positivity)
  have hdvd : (2 : Int) ^ (v + 1) ∣ k - k % 2 ^ (v + 1) := Int.dvd_self_sub_emod
  rw [signedResidue, Nat.add_sub_cancel]
  split
  · refine ⟨by omega, by omega, ?_⟩
    rw [← sub_add]
    exact dvd_add hdvd dvd_rfl
  · exact ⟨by omega, by omega, hdvd⟩

theorem signedResidue_odd (hw : 1 ≤ w) {k : Int} (hk : k % 2 = 1) : signedResidue w k % 2 = 1 := by
  obtain ⟨-, -, hdvd⟩ := signedResidue_range hw k
  have : (2 : Int) ∣ k - signedResidue w k := (dvd_pow_self 2 (by omega)).trans hdvd
  omega

/-- An odd k leaves a digit below 2^(w−1) in size. -/
theorem signedResidue_lt (hw : 2 ≤ w) {k : Int} (hk : k % 2 = 1) : (signedResidue w k).natAbs < 2 ^ (w - 1) := by
  obtain ⟨hlow, hhigh, -⟩ := signedResidue_range (w := w) (by omega) k
  have hodd := signedResidue_odd (w := w) (by omega) hk
  have heven : (2 : Int) ∣ 2 ^ (w - 1) := dvd_pow_self 2 (by omega)
  zify
  rw [abs_lt]
  omega

/-- The rest of the scalar after a digit keeps within the fuel. -/
theorem naf_rest_le (hw : 1 ≤ w) {k : Int} {n : Nat} (h0 : 0 ≤ k) (hk : k ≤ 2 ^ n) (hodd : k % 2 = 1) :
    0 ≤ k - signedResidue w k ∧ k - signedResidue w k ≤ 2 ^ n := by
  obtain ⟨hlow, hhigh, q, hq⟩ := signedResidue_range hw k
  obtain ⟨v, rfl⟩ : ∃ v, w = v + 1 := ⟨w - 1, by omega⟩
  rw [Nat.add_sub_cancel] at hlow hhigh
  have hpow : (2 : Int) ^ (v + 1) = 2 * 2 ^ v := by ring
  have hpos : (0 : Int) < 2 ^ v := by positivity
  have hq0 : 0 ≤ q := by
    by_contra hneg
    have : (2 : Int) ^ (v + 1) * q ≤ 2 ^ (v + 1) * -1 := mul_le_mul_of_nonneg_left (by omega) (by positivity)
    omega
  refine ⟨hq ▸ by positivity, ?_⟩
  rcases Nat.lt_or_ge v n with hvn | hvn
  · obtain ⟨d, rfl⟩ := Nat.exists_eq_add_of_lt hvn
    have hsplit : (2 : Int) ^ (v + d + 1) = 2 ^ (v + 1) * 2 ^ d := by rw [← pow_add]; congr 1; omega
    have hkl : k < 2 ^ (v + d + 1) := by
      have : (2 : Int) ∣ 2 ^ (v + d + 1) := dvd_pow_self 2 (by omega)
      omega
    rw [hq, hsplit]
    rw [hsplit] at hkl
    refine mul_le_mul_of_nonneg_left ?_ (by positivity)
    by_contra hgt
    have : (2 : Int) ^ (v + 1) * (2 ^ d + 1) ≤ 2 ^ (v + 1) * q := mul_le_mul_of_nonneg_left (by omega) (by positivity)
    rw [mul_add, mul_one] at this
    omega
  · have hle : (2 : Int) ^ n ≤ 2 ^ v := pow_le_pow_right₀ (by norm_num) hvn
    have hq1 : q < 1 := by
      by_contra hge
      have : (2 : Int) ^ (v + 1) * 1 ≤ 2 ^ (v + 1) * q := mul_le_mul_of_nonneg_left (by omega) (by positivity)
      omega
    have : q = 0 := by omega
    rw [hq, this, mul_zero]
    positivity

theorem nafLoop_succ_zero (fuel : Nat) : nafLoop w (fuel + 1) 0 = [] := rfl

theorem nafLoop_succ_even {fuel : Nat} {k : Int} (h0 : k ≠ 0) (hk : k % 2 = 0) :
    nafLoop w (fuel + 1) k = 0 :: nafLoop w fuel (k / 2) := by
  rw [nafLoop, if_neg h0, if_neg (by omega)]

theorem nafLoop_succ_odd {fuel : Nat} {k : Int} (hk : k % 2 = 1) :
    nafLoop w (fuel + 1) k = signedResidue w k :: nafLoop w fuel ((k - signedResidue w k) / 2) := by
  rw [nafLoop, if_neg (by omega), if_pos hk]

/-- The three ways the loop goes on, with what each leaves. -/
theorem nafLoop_cases (w fuel : Nat) (k : Int) : (k = 0 ∧ nafLoop w (fuel + 1) k = []) ∨
    ((k ≠ 0 ∧ k % 2 = 0) ∧ nafLoop w (fuel + 1) k = 0 :: nafLoop w fuel (k / 2)) ∨
    (k % 2 = 1 ∧ nafLoop w (fuel + 1) k = signedResidue w k :: nafLoop w fuel ((k - signedResidue w k) / 2)) := by
  by_cases h0 : k = 0
  · subst h0
    exact .inl ⟨rfl, rfl⟩
  by_cases hk : k % 2 = 1
  · exact .inr (.inr ⟨hk, nafLoop_succ_odd hk⟩)
  · exact .inr (.inl ⟨⟨h0, by omega⟩, nafLoop_succ_even h0 (by omega)⟩)

theorem nafLoop_length (fuel : Nat) : ∀ k, (nafLoop w fuel k).length ≤ fuel := by
  induction fuel with
  | zero => exact fun _ => Nat.le_refl 0
  | succ fuel ih =>
    intro k
    obtain ⟨-, h⟩ | ⟨-, h⟩ | ⟨-, h⟩ := nafLoop_cases w fuel k
    all_goals rw [h]
    · exact Nat.zero_le _
    · exact Nat.succ_le_succ (ih _)
    · exact Nat.succ_le_succ (ih _)

/-- Each digit is zero or odd and below 2^(w−1) in size. -/
theorem nafLoop_digits (hw : 2 ≤ w) (fuel : Nat) : ∀ k, ∀ d ∈ nafLoop w fuel k,
    d = 0 ∨ (d % 2 = 1 ∧ d.natAbs < 2 ^ (w - 1)) := by
  induction fuel with
  | zero => exact fun _ d hd => absurd hd List.not_mem_nil
  | succ fuel ih =>
    intro k
    obtain ⟨-, h⟩ | ⟨-, h⟩ | ⟨hk, h⟩ := nafLoop_cases w fuel k
    all_goals rw [h]
    · exact fun d hd => absurd hd List.not_mem_nil
    · exact List.forall_mem_cons.mpr ⟨.inl rfl, ih _⟩
    · exact List.forall_mem_cons.mpr ⟨.inr ⟨signedResidue_odd (by omega) hk, signedResidue_lt hw hk⟩, ih _⟩

/-- The low digits of a multiple of a power of two are zero. -/
theorem nafLoop_getD_of_dvd (fuel : Nat) : ∀ (k : Int) (n i : Nat), (2 : Int) ^ n ∣ k → i < n →
    (nafLoop w fuel k).getD i 0 = 0 := by
  induction fuel with
  | zero => exact fun _ _ _ _ _ => rfl
  | succ fuel ih =>
    intro k n i hdvd hi
    obtain ⟨m, rfl⟩ : ∃ m, n = m + 1 := ⟨n - 1, by omega⟩
    have heven : (2 : Int) ∣ k := (dvd_pow_self 2 (by omega)).trans hdvd
    obtain ⟨-, h⟩ | ⟨-, h⟩ | ⟨hk, h⟩ := nafLoop_cases w fuel k
    · rw [h]
      rfl
    · rw [h]
      cases i with
      | zero => rfl
      | succ i =>
        refine ih (k / 2) m i ?_ (by omega)
        obtain ⟨q, hq⟩ := hdvd
        exact ⟨q, by rw [pow_succ] at hq; rw [hq, mul_right_comm]; exact Int.mul_ediv_cancel _ (by norm_num)⟩
    · omega

theorem nafLoop_nonAdjacent (hw : 1 ≤ w) (fuel : Nat) : ∀ (k : Int) (i j : Nat), i < j → j < i + w →
    (nafLoop w fuel k).getD i 0 = 0 ∨ (nafLoop w fuel k).getD j 0 = 0 := by
  induction fuel with
  | zero => exact fun _ _ _ _ _ => .inl rfl
  | succ fuel ih =>
    intro k i j hij hj
    obtain ⟨j, rfl⟩ : ∃ n, j = n + 1 := ⟨j - 1, by omega⟩
    obtain ⟨-, h⟩ | ⟨-, h⟩ | ⟨hk, h⟩ := nafLoop_cases w fuel k
    all_goals rw [h]
    · exact .inl rfl
    · cases i with
      | zero => exact .inl rfl
      | succ i => exact ih _ i j (by omega) (by omega)
    · cases i with
      | zero =>
        refine .inr (nafLoop_getD_of_dvd fuel _ (w - 1) j ?_ (by omega))
        obtain ⟨-, -, q, hq⟩ := signedResidue_range hw k
        refine ⟨q, ?_⟩
        obtain ⟨v, rfl⟩ : ∃ v, w = v + 1 := ⟨w - 1, by omega⟩
        rw [hq, pow_succ, mul_right_comm]
        exact Int.mul_ediv_cancel _ (by norm_num)
      | succ i => exact ih _ i j (by omega) (by omega)

/-- The digits sum to k where the fuel is enough. -/
theorem nafLoop_value (hw : 1 ≤ w) (fuel : Nat) : ∀ k : Int, 0 ≤ k → 2 * k ≤ 2 ^ fuel →
    binaryValue (nafLoop w fuel k) = k := by
  induction fuel with
  | zero =>
    intro k h0 hk
    have : k = 0 := by omega
    rw [this]
    rfl
  | succ fuel ih =>
    intro k h0 hk
    rw [pow_succ] at hk
    obtain ⟨hz, h⟩ | ⟨⟨-, he⟩, h⟩ | ⟨hodd, h⟩ := nafLoop_cases w fuel k
    · rw [h, hz]
      rfl
    · rw [h, binaryValue, ih (k / 2) (by omega) (by omega)]
      omega
    · obtain ⟨hr0, hr⟩ := naf_rest_le hw h0 (n := fuel) (by omega) hodd
      have hu := signedResidue_odd hw hodd
      rw [h, binaryValue, ih _ (by omega) (by omega)]
      omega

/-- The last digit of a positive scalar is positive; `d` stands for the digit before the rest. -/
theorem nafLoop_getLastD_pos (hw : 1 ≤ w) (fuel : Nat) : ∀ k d : Int, 0 ≤ k → 2 * k ≤ 2 ^ fuel → (k = 0 → 0 < d) →
    0 < (nafLoop w fuel k).getLastD d := by
  induction fuel with
  | zero =>
    intro k d h0 hk hd
    exact hd (by omega)
  | succ fuel ih =>
    intro k d h0 hk hd
    rw [pow_succ] at hk
    obtain ⟨hz, h⟩ | ⟨⟨hne, he⟩, h⟩ | ⟨hodd, h⟩ := nafLoop_cases w fuel k
    · rw [h]
      exact hd hz
    · rw [h, List.getLastD_cons]
      exact ih (k / 2) 0 (by omega) (by omega) (by omega)
    · obtain ⟨hr0, hr⟩ := naf_rest_le hw h0 (n := fuel) (by omega) hodd
      have hu := signedResidue_odd hw hodd
      rw [h, List.getLastD_cons]
      exact ih _ (signedResidue w k) (by omega) (by omega) (by omega)

end naf

theorem naf_fuel (k : Nat) : 2 * (k : Int) ≤ 2 ^ (bitlen k + 1) := by
  have := lt_two_pow_bitlen k
  rw [pow_succ]
  zify at this
  omega

theorem naf_value {w : Nat} (hw : 1 ≤ w) (k : Nat) : binaryValue (naf w k) = k :=
  nafLoop_value hw _ _ (by omega) (naf_fuel k)

theorem naf_length (w k : Nat) : (naf w k).length ≤ bitlen k + 1 := nafLoop_length _ _

theorem naf_zero (w : Nat) : naf w 0 = [] := rfl

/-- Settles O29. -/
theorem nafProperties : Obligations.NafProperties := by
  unfold Obligations.NafProperties
  intro s rd ra w hwf hfits hsign hw2 hw8
  have hlen := (naf_length w.val s.n[ra].mag).trans (bitlen_le_rcLen hwf hfits ra)
  refine ⟨finish (s.putRc rd (naf w.val s.n[ra].mag)), naf w.val s.n[ra].mag, ?_, ?_, onlyRc_putRc s rd _,
    naf_value (by omega) _, nafLoop_digits hw2 _ _, nafLoop_nonAdjacent (by omega) _ _, naf_length _ _, fun h => ?_,
    fun h => by rw [h]; rfl⟩
  · dsimp only [exec]
    refine command_completes ?_
    have hpass : firstFault (scalarChecks [s.n[ra]]) = none := scalarChecks_pass (by simpa using hsign)
    have hlegal : signedWidth w = true := decide_eq_true ⟨hw2, hw8⟩
    simp only [firstFault, needInput, hlegal, hpass, if_true]
  · rw [finish_rc, putRc_same]
    exact holds_ofDigits hlen
  · exact nafLoop_getLastD_pos (by omega) _ _ 0 (by omega) (naf_fuel _) (by omega)

/-! The fixed-window recoding (42_rec R150, R151). -/

/-- The first n digits in base 2^w hold the value modulo 2^(w·n). -/
theorem sum_win (w k n : Nat) :
    ∑ i ∈ Finset.range n, k / 2 ^ (w * i) % 2 ^ w * 2 ^ (w * i) = k % 2 ^ (w * n) := by
  induction n with
  | zero => simp [Nat.mod_one]
  | succ n ih =>
    rw [Finset.sum_range_succ, ih, Nat.mul_succ, pow_add, Nat.mod_mul, Nat.mul_comm (2 ^ (w * n))]

theorem win_length (w k : Nat) : (win w k).length = (bitlen k + w - 1) / w := by
  simp [win]

theorem win_getD {w k i : Nat} (hi : i < (win w k).length) : (win w k).getD i 0 = k / 2 ^ (w * i) % 2 ^ w := by
  rw [List.getD_eq_getElem _ _ hi]
  simp [win]

theorem win_digit_lt {w k : Nat} : ∀ d ∈ win w k, d < 2 ^ w := by
  intro d hd
  obtain ⟨i, -, rfl⟩ := List.mem_map.mp hd
  exact Nat.mod_lt _ (by positivity)

theorem bitlen_le_win {w : Nat} (hw : 1 ≤ w) (k : Nat) : bitlen k ≤ w * ((bitlen k + w - 1) / w) := by
  have := Nat.div_add_mod (bitlen k + w - 1) w
  have := Nat.mod_lt (bitlen k + w - 1) (show w > 0 by omega)
  omega

theorem win_value {w : Nat} (hw : 1 ≤ w) (k : Nat) :
    k = ∑ i ∈ Finset.range (win w k).length, (win w k).getD i 0 * 2 ^ (w * i) := by
  rw [Finset.sum_congr rfl fun i hi => by rw [win_getD (Finset.mem_range.mp hi)], sum_win, win_length]
  exact (Nat.mod_eq_of_lt (bitlen_le_iff.mp (bitlen_le_win hw k))).symm

theorem win_length_le {w : Nat} (hw : 1 ≤ w) (k : Nat) : (win w k).length ≤ bitlen k := by
  rw [win_length]
  obtain ⟨v, rfl⟩ : ∃ v, w = v + 1 := ⟨w - 1, by omega⟩
  rcases Nat.eq_zero_or_pos (bitlen k) with h | h
  · rw [h, Nat.div_eq_of_lt (by omega)]
  · obtain ⟨n, hn⟩ : ∃ n, bitlen k = n + 1 := ⟨bitlen k - 1, by omega⟩
    have : (v + 1) * (n + 1) = v * n + v + n + 1 := by ring
    rw [hn]
    exact Nat.div_le_of_le_mul (by omega)

/-- Settles O31. -/
theorem winProperties : Obligations.WinProperties := by
  unfold Obligations.WinProperties
  intro s rd ra w hwf hfits hsign hw1 hw8
  have hlen := (win_length_le hw1 s.n[ra].mag).trans (Nat.le_of_succ_le (bitlen_le_rcLen hwf hfits ra))
  refine ⟨finish (s.putRc rd ((win w.val s.n[ra].mag).map Int.ofNat)), win w.val s.n[ra].mag, ?_, ?_,
    onlyRc_putRc s rd _, win_digit_lt, win_value hw1 _, win_length _ _⟩
  · dsimp only [exec]
    refine command_completes ?_
    have hpass : firstFault (scalarChecks [s.n[ra]]) = none := scalarChecks_pass (by simpa using hsign)
    have hlegal : unsignedWidth w = true := decide_eq_true ⟨hw1, hw8⟩
    simp only [firstFault, needInput, hlegal, hpass, if_true]
  · rw [finish_rc, putRc_same]
    exact holds_ofDigits (by rwa [List.length_map])

/-! The joint sparse form (42_rec R145, R146). -/

section jsf

/-- The state of the loop after a column: the scalars less their digits, halved. -/
def jsfNext (a b : Nat) : Nat := ((a - jsfDigit a b) / 2 : Int).toNat

theorem jsfDigit_cases (a b : Nat) : (a % 2 = 0 ∧ jsfDigit a b = 0) ∨
    (a % 2 = 1 ∧ ((a % 8 = 3 ∨ a % 8 = 5) ∧ b % 4 = 2) ∧ jsfDigit a b = ((a % 4 : Nat) : Int) - 2) ∨
    (a % 2 = 1 ∧ ¬((a % 8 = 3 ∨ a % 8 = 5) ∧ b % 4 = 2) ∧ jsfDigit a b = 2 - ((a % 4 : Nat) : Int)) := by
  unfold jsfDigit
  split
  · exact .inl ⟨‹_›, rfl⟩
  · dsimp only
    split
    · exact .inr (.inl ⟨by omega, ‹_›, by omega⟩)
    · exact .inr (.inr ⟨by omega, ‹_›, rfl⟩)

/-- A digit is −1, 0 or 1 and leaves an even rest. -/
theorem jsfDigit_trit (a b : Nat) : jsfDigit a b = -1 ∨ jsfDigit a b = 0 ∨ jsfDigit a b = 1 := by
  have := jsfDigit_cases a b
  omega

theorem jsfNext_value (a b : Nat) : 2 * (jsfNext a b : Int) + jsfDigit a b = a := by
  have := jsfDigit_cases a b
  unfold jsfNext
  omega

/-- The carries of the rule are those of the rest. -/
theorem jsfCarry_next {k c : Nat} (hc : c ≤ 1) (b : Nat) :
    k / 2 + jsfCarry c (jsfDigit (c + k) b) = jsfNext (c + k) b ∧ jsfCarry c (jsfDigit (c + k) b) ≤ 1 := by
  have hv := jsfNext_value (c + k) b
  have ht := jsfDigit_trit (c + k) b
  unfold jsfCarry
  split <;> omega

/-- The loop on the scalars with their carries. -/
def jsfPairs : Nat → Nat → Nat → List (Int × Int)
  | 0, _, _ => []
  | fuel + 1, a, b =>
    if a > 0 ∨ b > 0 then (jsfDigit a b, jsfDigit b a) :: jsfPairs fuel (jsfNext a b) (jsfNext b a) else []

theorem jsfLoop_eq (fuel : Nat) : ∀ k l c d : Nat, c ≤ 1 → d ≤ 1 →
    jsfLoop fuel k l c d = jsfPairs fuel (c + k) (d + l) := by
  induction fuel with
  | zero => exact fun _ _ _ _ _ _ => rfl
  | succ fuel ih =>
    intro k l c d hc hd
    obtain ⟨hk, hc'⟩ := jsfCarry_next (k := k) hc (d + l)
    obtain ⟨hl, hd'⟩ := jsfCarry_next (k := l) hd (c + k)
    rw [jsfLoop]
    dsimp only
    rw [jsfPairs, ih _ _ _ _ hc' hd', Nat.add_comm _ (k / 2), Nat.add_comm _ (l / 2), hk, hl, Nat.add_comm k c,
      Nat.add_comm l d]

theorem jsf_eq (k l : Nat) : jsf k l = jsfPairs (max (bitlen k) (bitlen l) + 1) k l := by
  rw [jsf, jsfLoop_eq _ _ _ _ _ (by omega) (by omega), Nat.zero_add, Nat.zero_add]

/-- The column at the head of the loop. -/
theorem jsfPairs_getD_zero (fuel a b : Nat) :
    (jsfPairs (fuel + 1) a b).getD 0 (0, 0) = (jsfDigit a b, jsfDigit b a) := by
  rw [jsfPairs]
  split
  · rfl
  · obtain ⟨rfl, rfl⟩ : a = 0 ∧ b = 0 := by omega
    rfl

theorem jsfPairs_zero (fuel : Nat) : jsfPairs fuel 0 0 = [] := by cases fuel <;> rfl

theorem jsfPairs_getD_succ (fuel a b i : Nat) : (jsfPairs (fuel + 1) a b).getD (i + 1) (0, 0) =
    (jsfPairs fuel (jsfNext a b) (jsfNext b a)).getD i (0, 0) := by
  rw [jsfPairs]
  split
  · rfl
  · obtain ⟨rfl, rfl⟩ : a = 0 ∧ b = 0 := by omega
    show _ = (jsfPairs fuel 0 0).getD i (0, 0)
    rw [jsfPairs_zero]
    rfl

theorem jsfDigit_of_even {a b : Nat} (h : a % 2 = 0) : jsfDigit a b = 0 := if_pos h

theorem jsfDigit_ne_zero_iff {a b : Nat} : jsfDigit a b ≠ 0 ↔ a % 2 = 1 := by
  have := jsfDigit_cases a b
  omega

/-- Two non-zero digits of one scalar in a row are equal, and then the other scalar has a zero and a non-zero
digit. -/
theorem jsfDigit_adjacent {a b : Nat} (h : jsfDigit a b ≠ 0)
    (h' : jsfDigit (jsfNext a b) (jsfNext b a) ≠ 0) :
    jsfDigit (jsfNext a b) (jsfNext b a) = jsfDigit a b ∧ jsfDigit b a = 0 ∧
      jsfDigit (jsfNext b a) (jsfNext a b) ≠ 0 := by
  rw [jsfDigit_ne_zero_iff] at h h' ⊢
  have ha := jsfNext_value a b
  have hb := jsfNext_value b a
  -- Only a digit of the other sign than the rule's first choice leaves an odd rest.
  obtain ⟨hpa, -⟩ | ⟨-, hflip, hda⟩ | ⟨-, hflip, hda⟩ := jsfDigit_cases a b
  · omega
  · have hdb : jsfDigit b a = 0 := jsfDigit_of_even (by omega)
    rw [hdb] at hb ⊢
    have hb' : jsfNext b a % 2 = 1 := by omega
    refine ⟨?_, rfl, hb'⟩
    obtain ⟨hp, -⟩ | ⟨-, hf, -⟩ | ⟨-, -, hd⟩ := jsfDigit_cases (jsfNext a b) (jsfNext b a)
    · omega
    · omega
    · rw [hd, hda]
      omega
  · omega

/-- After two columns that are not zero comes a zero column. -/
theorem jsfDigit_three {a b : Nat} (h : jsfDigit a b ≠ 0 ∨ jsfDigit b a ≠ 0)
    (h' : jsfDigit (jsfNext a b) (jsfNext b a) ≠ 0 ∨ jsfDigit (jsfNext b a) (jsfNext a b) ≠ 0) :
    jsfNext (jsfNext a b) (jsfNext b a) % 2 = 0 := by
  simp only [jsfDigit_ne_zero_iff] at h h'
  have hab' := jsfDigit_cases (jsfNext a b) (jsfNext b a)
  have ha := jsfNext_value a b
  have hb := jsfNext_value b a
  have ha' := jsfNext_value (jsfNext a b) (jsfNext b a)
  generalize jsfNext (jsfNext a b) (jsfNext b a) = a'' at *
  generalize jsfNext a b = a' at *
  generalize jsfNext b a = b' at *
  -- The two digits of the first column decide the rests modulo 4.
  obtain ⟨hpa, hda⟩ | ⟨hpa, hfa, hda⟩ | ⟨hpa, hfa, hda⟩ := jsfDigit_cases a b
  all_goals
    obtain ⟨hpb, hdb⟩ | ⟨hpb, hfb, hdb⟩ | ⟨hpb, hfb, hdb⟩ := jsfDigit_cases b a
    all_goals
      rw [hda] at ha
      rw [hdb] at hb
      clear hda hdb
      omega

theorem jsfPairs_trit (fuel : Nat) : ∀ a b : Nat, ∀ c ∈ jsfPairs fuel a b,
    (c.1 = -1 ∨ c.1 = 0 ∨ c.1 = 1) ∧ (c.2 = -1 ∨ c.2 = 0 ∨ c.2 = 1) := by
  induction fuel with
  | zero => exact fun _ _ c hc => absurd hc List.not_mem_nil
  | succ fuel ih =>
    intro a b
    rw [jsfPairs]
    split
    · exact List.forall_mem_cons.mpr ⟨⟨jsfDigit_trit a b, jsfDigit_trit b a⟩, ih _ _⟩
    · exact fun c hc => absurd hc List.not_mem_nil

theorem jsfPairs_length (fuel : Nat) : ∀ a b : Nat, (jsfPairs fuel a b).length ≤ fuel := by
  induction fuel with
  | zero => exact fun _ _ => Nat.le_refl 0
  | succ fuel ih =>
    intro a b
    rw [jsfPairs]
    split
    · exact Nat.succ_le_succ (ih _ _)
    · exact Nat.zero_le _

/-- The rest keeps within the fuel. -/
theorem jsfNext_le {a b fuel : Nat} (ha : a ≤ 2 ^ fuel) (hb : b ≤ 2 ^ fuel) : 2 * jsfNext a b ≤ 2 ^ fuel := by
  have hv := jsfNext_value a b
  have ht := jsfDigit_cases a b
  cases fuel with
  | zero => omega
  | succ n =>
    rw [pow_succ] at *
    omega

theorem jsfPairs_value (fuel : Nat) : ∀ a b : Nat, 2 * a ≤ 2 ^ fuel → 2 * b ≤ 2 ^ fuel →
    binaryValue ((jsfPairs fuel a b).map Prod.fst) = a ∧ binaryValue ((jsfPairs fuel a b).map Prod.snd) = b := by
  induction fuel with
  | zero =>
    intro a b ha hb
    obtain ⟨rfl, rfl⟩ : a = 0 ∧ b = 0 := by omega
    exact ⟨rfl, rfl⟩
  | succ fuel ih =>
    intro a b ha hb
    rw [pow_succ] at ha hb
    rw [jsfPairs]
    split
    · obtain ⟨h1, h2⟩ := ih _ _ (jsfNext_le (b := b) (a := a) (by omega) (by omega))
        (jsfNext_le (b := a) (a := b) (by omega) (by omega))
      rw [List.map_cons, List.map_cons, binaryValue, binaryValue, h1, h2]
      have := jsfNext_value a b
      have := jsfNext_value b a
      constructor <;> omega
    · obtain ⟨rfl, rfl⟩ : a = 0 ∧ b = 0 := by omega
      exact ⟨rfl, rfl⟩

/-- The last column is not zero; `c` stands for the column before the rest. -/
theorem jsfPairs_getLastD (fuel : Nat) : ∀ (a b : Nat) (c : Int × Int), 2 * a ≤ 2 ^ fuel → 2 * b ≤ 2 ^ fuel →
    (a = 0 → b = 0 → c.1 ≠ 0 ∨ c.2 ≠ 0) →
    ((jsfPairs fuel a b).getLastD c).1 ≠ 0 ∨ ((jsfPairs fuel a b).getLastD c).2 ≠ 0 := by
  induction fuel with
  | zero => exact fun a b c ha hb hc => hc (by omega) (by omega)
  | succ fuel ih =>
    intro a b c ha hb hc
    rw [pow_succ] at ha hb
    rw [jsfPairs]
    split
    · rw [List.getLastD_cons]
      refine ih _ _ _ (jsfNext_le (by omega) (by omega)) (jsfNext_le (by omega) (by omega)) fun h1 h2 => ?_
      have := jsfNext_value a b
      have := jsfNext_value b a
      dsimp only
      omega
    · exact hc (by omega) (by omega)

/-- The three properties of 42_rec R145, on three columns in a row. -/
def JointSparse (c d e : Int × Int) : Prop :=
  ((c.1 = 0 ∧ c.2 = 0) ∨ (d.1 = 0 ∧ d.2 = 0) ∨ (e.1 = 0 ∧ e.2 = 0)) ∧
    d.1 * c.1 ≠ -1 ∧ d.2 * c.2 ≠ -1 ∧ (d.1 * c.1 ≠ 0 → d.2 ≠ 0 ∧ c.2 = 0) ∧ (d.2 * c.2 ≠ 0 → d.1 ≠ 0 ∧ c.1 = 0)

theorem jointSparse_zero (c : Int × Int) (e : Int × Int) : JointSparse c (0, 0) e := by
  simp [JointSparse]

theorem mul_self_ne_neg_one (x : Int) : x * x ≠ -1 := fun h => by nlinarith [mul_self_nonneg x]

/-- Two columns of the loop and a third that is zero unless one of them is. -/
theorem jointSparse_columns {a b : Nat} {e : Int × Int}
    (he : jsfDigit a b ≠ 0 ∨ jsfDigit b a ≠ 0 → jsfDigit (jsfNext a b) (jsfNext b a) ≠ 0 ∨
      jsfDigit (jsfNext b a) (jsfNext a b) ≠ 0 → e.1 = 0 ∧ e.2 = 0) :
    JointSparse (jsfDigit a b, jsfDigit b a)
      (jsfDigit (jsfNext a b) (jsfNext b a), jsfDigit (jsfNext b a) (jsfNext a b)) e := by
  have hu := jsfDigit_adjacent (a := a) (b := b)
  have hv := jsfDigit_adjacent (a := b) (b := a)
  refine ⟨?_, fun h => ?_, fun h => ?_, fun h => ?_, fun h => ?_⟩
  · dsimp only
    tauto
  · have hne : jsfDigit (jsfNext a b) (jsfNext b a) * jsfDigit a b ≠ 0 := by rw [h]; decide
    obtain ⟨h1, h0⟩ := mul_ne_zero_iff.mp hne
    exact mul_self_ne_neg_one _ ((hu h0 h1).1 ▸ h)
  · have hne : jsfDigit (jsfNext b a) (jsfNext a b) * jsfDigit b a ≠ 0 := by rw [h]; decide
    obtain ⟨h1, h0⟩ := mul_ne_zero_iff.mp hne
    exact mul_self_ne_neg_one _ ((hv h0 h1).1 ▸ h)
  · obtain ⟨h1, h0⟩ := mul_ne_zero_iff.mp h
    exact ⟨(hu h0 h1).2.2, (hu h0 h1).2.1⟩
  · obtain ⟨h1, h0⟩ := mul_ne_zero_iff.mp h
    exact ⟨(hv h0 h1).2.2, (hv h0 h1).2.1⟩

theorem jsfPairs_jointSparse (i : Nat) : ∀ fuel a b : Nat,
    JointSparse ((jsfPairs fuel a b).getD i (0, 0)) ((jsfPairs fuel a b).getD (i + 1) (0, 0))
      ((jsfPairs fuel a b).getD (i + 2) (0, 0)) := by
  induction i with
  | succ i ih =>
    intro fuel a b
    cases fuel with
    | zero => exact jointSparse_zero _ _
    | succ fuel =>
      rw [jsfPairs_getD_succ, jsfPairs_getD_succ, jsfPairs_getD_succ]
      exact ih fuel _ _
  | zero =>
    intro fuel a b
    match fuel with
    | 0 => exact jointSparse_zero _ _
    | 1 =>
      rw [jsfPairs_getD_succ]
      exact jointSparse_zero _ _
    | 2 =>
      rw [jsfPairs_getD_zero, jsfPairs_getD_succ, jsfPairs_getD_zero, jsfPairs_getD_succ, jsfPairs_getD_succ]
      exact jointSparse_columns fun _ _ => ⟨rfl, rfl⟩
    | fuel + 3 =>
      rw [jsfPairs_getD_zero, jsfPairs_getD_succ, jsfPairs_getD_zero, jsfPairs_getD_succ, jsfPairs_getD_succ,
        jsfPairs_getD_zero]
      refine jointSparse_columns fun h h' => ⟨?_, ?_⟩
      · exact jsfDigit_of_even (jsfDigit_three h h')
      · exact jsfDigit_of_even (jsfDigit_three h.symm h'.symm)

end jsf

theorem jsf_length (k l : Nat) : (jsf k l).length ≤ max (bitlen k) (bitlen l) + 1 := by
  rw [jsf_eq]
  exact jsfPairs_length _ _ _

theorem jsf_fuel {k n : Nat} (h : bitlen k ≤ n) : 2 * k ≤ 2 ^ (n + 1) := by
  have := bitlen_le_iff.mp h
  rw [pow_succ]
  omega

theorem jsf_value (k l : Nat) :
    binaryValue ((jsf k l).map Prod.fst) = k ∧ binaryValue ((jsf k l).map Prod.snd) = l := by
  rw [jsf_eq]
  exact jsfPairs_value _ _ _ (jsf_fuel (le_max_left _ _)) (jsf_fuel (le_max_right _ _))

theorem getLastD_map_fst (l : List (Int × Int)) : (l.map Prod.fst).getLastD 0 = (l.getLastD (0, 0)).1 := by
  simp only [List.getLastD_eq_getLast?, List.getLast?_map]
  cases l.getLast? <;> rfl

theorem getLastD_map_snd (l : List (Int × Int)) : (l.map Prod.snd).getLastD 0 = (l.getLastD (0, 0)).2 := by
  simp only [List.getLastD_eq_getLast?, List.getLast?_map]
  cases l.getLast? <;> rfl

theorem getD_jsf_fst (k l i : Nat) : ((jsf k l).map Prod.fst).getD i 0 = ((jsf k l).getD i (0, 0)).1 :=
  List.getD_map _ (0, 0) Prod.fst

theorem getD_jsf_snd (k l i : Nat) : ((jsf k l).map Prod.snd).getD i 0 = ((jsf k l).getD i (0, 0)).2 :=
  List.getD_map _ (0, 0) Prod.snd

theorem jsf_jointSparse (k l i : Nat) : JointSparse ((jsf k l).getD i (0, 0)) ((jsf k l).getD (i + 1) (0, 0))
    ((jsf k l).getD (i + 2) (0, 0)) := by
  rw [jsf_eq]
  exact jsfPairs_jointSparse i _ _ _

/-- Settles O30. -/
theorem jsfProperties : Obligations.JsfProperties := by
  unfold Obligations.JsfProperties
  intro s rd ra rb hwf hfits hsa hsb heven
  have hlen : (jsf s.n[ra].mag s.n[rb].mag).length ≤ s.build.rcLen := by
    have := jsf_length s.n[ra].mag s.n[rb].mag
    have := bitlen_le_rcLen hwf hfits ra
    have := bitlen_le_rcLen hwf hfits rb
    omega
  have hne : rd + 1 ≠ rd := (by decide : ∀ r : Reg, r + 1 ≠ r) rd
  refine ⟨finish ((s.putRc rd ((jsf s.n[ra].mag s.n[rb].mag).map Prod.fst)).putRc (rd + 1)
    ((jsf s.n[ra].mag s.n[rb].mag).map Prod.snd)), (jsf s.n[ra].mag s.n[rb].mag).map Prod.fst,
    (jsf s.n[ra].mag s.n[rb].mag).map Prod.snd, ?_, ?_, ?_, ?_, ?_, ?_, ?_, ?_, (jsf_value _ _).1, (jsf_value _ _).2,
    ?_, ?_, fun i => ?_⟩
  · dsimp only [exec]
    refine command_completes ?_
    have hpass : firstFault (scalarChecks [s.n[ra], s.n[rb]]) = none :=
      scalarChecks_pass (by simpa using ⟨hsa, hsb⟩)
    simp only [firstFault, needInput, heven, hpass, beq_self_eq_true, if_true]
  · rw [finish_rc, putRc_other _ _ _ _ hne.symm, putRc_same]
    exact holds_ofDigits (by rwa [List.length_map])
  · rw [finish_rc, putRc_same]
    exact holds_ofDigits (b := s.build) (by rwa [List.length_map])
  · refine ⟨frame_of_untouched ((Wrote.same.putRc rd _).putRc (rd + 1) _).untouched
      (sameFile_of_ne fun f hf => by cases f <;> first | rfl | exact absurd rfl hf), rfl, fun r hr => ?_⟩
    obtain ⟨hr0, hr1⟩ : r ≠ rd ∧ r ≠ rd + 1 := by simpa using hr
    exact (putRc_other _ _ r _ hr1).trans (putRc_other _ _ r _ hr0)
  · rw [List.length_map, List.length_map]
  · rw [List.length_map]
    exact jsf_length _ _
  · intro ha hb
    rw [ha, hb]
    rfl
  · intro hne
    rw [getLastD_map_fst, getLastD_map_snd, jsf_eq]
    refine jsfPairs_getLastD _ _ _ _ (jsf_fuel (le_max_left _ _)) (jsf_fuel (le_max_right _ _)) fun ha hb => ?_
    rw [ha, hb] at hne
    exact absurd rfl hne
  · rw [List.forall_mem_map, jsf_eq]
    exact fun c hc => (jsfPairs_trit _ _ _ c hc).1
  · rw [List.forall_mem_map, jsf_eq]
    exact fun c hc => (jsfPairs_trit _ _ _ c hc).2
  · rw [getD_jsf_fst, getD_jsf_fst, getD_jsf_fst, getD_jsf_snd, getD_jsf_snd, getD_jsf_snd]
    exact jsf_jointSparse _ _ i

end Sys2Proof.Proofs.Recoding
end

section
/-! PROOFS. The multiplication loops (45_ep R257 to R268, 46_eb R303): first that related operations give related
results, which carries both the group law and every closed set of points through a loop, then what the loops
compute in a commutative group. -/

set_option Elab.async false

namespace Sys2Proof.Proofs.Loops

open Sys2Proof.Machine Sys2Proof.Proofs.Context Sys2Proof.Proofs.Recoding

/-! Related operations. -/

section related

variable {α β : Type}

/-- The operations keep `R`: from related points they lead to related points. -/
structure OpsRel (R : α → β → Prop) (o : PtOps α) (o' : PtOps β) : Prop where
  zero : R o.zero o'.zero
  neg : ∀ {P Q}, R P Q → R (o.neg P) (o'.neg Q)
  add : ∀ {P Q P' Q'}, R P Q → R P' Q' → R (o.add P P') (o'.add Q Q')
  dbl : ∀ {P Q}, R P Q → R (o.dbl P) (o'.dbl Q)

variable {R : α → β → Prop} {o : PtOps α} {o' : PtOps β}

theorem forall₂_set {S : List α} {T : List β} (hS : List.Forall₂ R S T) : ∀ (j : Nat) {x : α} {y : β}, R x y →
    List.Forall₂ R (S.set j x) (T.set j y) := by
  induction hS with
  | nil => exact fun _ _ _ _ => .nil
  | cons hx hS ih =>
    intro j x y h
    cases j with
    | zero => exact .cons h hS
    | succ j => exact .cons hx (ih j h)

namespace OpsRel

variable (h : OpsRel R o o')
include h

theorem mulBits {P : α} {Q : β} (hP : R P Q) (k t : Nat) : ∀ {A : α} {B : β}, R A B →
    R (Machine.mulBits o P k t A) (Machine.mulBits o' Q k t B) := by
  induction t with
  | zero => exact id
  | succ t ih =>
    intro A B hA
    refine ih ?_
    split
    · exact h.add (h.dbl hA) hP
    · exact h.dbl hA

theorem mulBasic (k : Nat) {P : α} {Q : β} (hP : R P Q) : R (Machine.mulBasic o k P) (Machine.mulBasic o' k Q) := by
  unfold Machine.mulBasic
  split
  · exact h.zero
  · exact h.mulBits hP _ _ hP

theorem mulSigned {mul : Nat → α → α} {mul' : Nat → β → β}
    (hmul : ∀ (k : Nat) {P : α} {Q : β}, R P Q → R (mul k P) (mul' k Q)) (k : Int) {P : α} {Q : β} (hP : R P Q) :
    R (Machine.mulSigned o mul k P) (Machine.mulSigned o' mul' k Q) := by
  unfold Machine.mulSigned
  split
  · exact hmul _ (h.neg hP)
  · exact hmul _ hP

theorem tableFrom {D : α} {E : β} (hD : R D E) (n : Nat) : ∀ {T : α} {U : β}, R T U →
    List.Forall₂ R (Machine.tableFrom o D n T) (Machine.tableFrom o' E n U) := by
  induction n with
  | zero => exact fun _ => .nil
  | succ n ih => exact fun hT => .cons hT (ih (h.add hT hD))

theorem oddTable (w : Nat) {P : α} {Q : β} (hP : R P Q) :
    List.Forall₂ R (Machine.oddTable o w P) (Machine.oddTable o' w Q) :=
  h.tableFrom (h.dbl hP) _ hP

theorem getD {S : List α} {T : List β} (hS : List.Forall₂ R S T) : ∀ j, R (S.getD j o.zero) (T.getD j o'.zero) := by
  induction hS with
  | nil => exact fun _ => h.zero
  | cons hx _ ih =>
    intro j
    cases j with
    | zero => exact hx
    | succ j => exact ih j

theorem addDigit {S : List α} {T : List β} (hS : List.Forall₂ R S T) (d : Int) {A : α} {B : β} (hA : R A B) :
    R (Machine.addDigit o S d A) (Machine.addDigit o' T d B) := by
  unfold Machine.addDigit
  split
  · exact h.add hA (h.getD hS _)
  · split
    · exact h.add hA (h.neg (h.getD hS _))
    · exact hA

theorem leftToRight {S : List α} {T : List β} (hS : List.Forall₂ R S T) (ds : List Int) :
    R (Machine.leftToRight o S ds) (Machine.leftToRight o' T ds) := by
  induction ds with
  | nil => exact h.zero
  | cons d ds ih => exact h.addDigit hS d (h.dbl ih)

theorem mulLwnaf (w k : Nat) {P : α} {Q : β} (hP : R P Q) :
    R (Machine.mulLwnaf o w k P) (Machine.mulLwnaf o' w k Q) :=
  h.leftToRight (h.oddTable w hP) _

theorem addSlot {S : List α} {T : List β} (hS : List.Forall₂ R S T) (d : Int) {P : α} {Q : β} (hP : R P Q) :
    List.Forall₂ R (Machine.addSlot o S d P) (Machine.addSlot o' T d Q) := by
  unfold Machine.addSlot
  dsimp only
  split
  · exact forall₂_set hS _ (h.add (h.getD hS _) hP)
  · split
    · exact forall₂_set hS _ (h.add (h.getD hS _) (h.neg hP))
    · exact hS

theorem rightToLeft (ds : List Int) : ∀ {S : List α} {T : List β} {P : α} {Q : β}, List.Forall₂ R S T → R P Q →
    List.Forall₂ R (Machine.rightToLeft o ds S P) (Machine.rightToLeft o' ds T Q) := by
  induction ds with
  | nil => exact fun hS _ => hS
  | cons d ds ih => exact fun hS hP => ih (h.addSlot hS d hP) (h.dbl hP)

theorem combineSlots {S : List α} {T : List β} (hS : List.Forall₂ R S T) : ∀ j,
    R (Machine.combineSlots o S j) (Machine.combineSlots o' T j) := by
  induction hS with
  | nil => exact fun _ => h.zero
  | cons hx _ ih => exact fun j => h.add (h.mulBasic _ hx) (ih (j + 1))

theorem mulRwnaf (w k : Nat) {P : α} {Q : β} (hP : R P Q) :
    R (Machine.mulRwnaf o w k P) (Machine.mulRwnaf o' w k Q) := by
  refine h.combineSlots (h.rightToLeft _ ?_ hP) 0
  induction 2 ^ (w - 2) with
  | zero => exact .nil
  | succ n ih => exact .cons h.zero ih

theorem signPoint (k : Int) {P : α} {Q : β} (hP : R P Q) : R (Machine.signPoint o k P) (Machine.signPoint o' k Q) := by
  unfold Machine.signPoint
  split
  · exact h.neg hP
  · exact hP

theorem dblTimes (n : Nat) : ∀ {A : α} {B : β}, R A B → R (Machine.dblTimes o n A) (Machine.dblTimes o' n B) := by
  induction n with
  | zero => exact id
  | succ n ih => exact fun hA => ih (h.dbl hA)

theorem trickLoop (w : Nat) {P P' : α} {Q Q' : β} (hP : R P Q) (hP' : R P' Q') (cs : List (Nat × Nat)) :
    R (Machine.trickLoop o w P P' cs) (Machine.trickLoop o' w Q Q' cs) := by
  induction cs with
  | nil => exact h.zero
  | cons c cs ih => exact h.add (h.dblTimes w ih) (h.add (h.mulBasic _ hP) (h.mulBasic _ hP'))

theorem simTrick (w k l : Nat) {P P' : α} {Q Q' : β} (hP : R P Q) (hP' : R P' Q') :
    R (Machine.simTrick o w k P l P') (Machine.simTrick o' w k Q l Q') :=
  h.trickLoop w hP hP' _

theorem interLoop {S S' : List α} {T T' : List β} (hS : List.Forall₂ R S T) (hS' : List.Forall₂ R S' T')
    (cs : List (Int × Int)) : R (Machine.interLoop o S S' cs) (Machine.interLoop o' T T' cs) := by
  induction cs with
  | nil => exact h.zero
  | cons c cs ih => exact h.addDigit hS' _ (h.addDigit hS _ (h.dbl ih))

theorem simInter (w k l : Nat) {P P' : α} {Q Q' : β} (hP : R P Q) (hP' : R P' Q') :
    R (Machine.simInter o w k P l P') (Machine.simInter o' w k Q l Q') :=
  h.interLoop (h.oddTable w hP) (h.oddTable w hP') _

theorem addTrit {P P' : α} {Q Q' : β} (hP : R P Q) (hP' : R P' Q') (c : Int × Int) {A : α} {B : β} (hA : R A B) :
    R (Machine.addTrit o P P' c A) (Machine.addTrit o' Q Q' c B) := by
  unfold Machine.addTrit
  split
  · exact h.add hA hP'
  · exact h.add hA (h.neg hP')
  · exact h.add hA hP
  · exact h.add hA (h.neg hP)
  · exact h.add hA (h.add hP hP')
  · exact h.add hA (h.neg (h.add hP hP'))
  · exact h.add hA (h.add hP (h.neg hP'))
  · exact h.add hA (h.neg (h.add hP (h.neg hP')))
  · exact hA

theorem simJoint (k l : Nat) {P P' : α} {Q Q' : β} (hP : R P Q) (hP' : R P' Q') :
    R (Machine.simJoint o k P l P') (Machine.simJoint o' k Q l Q') := by
  unfold Machine.simJoint
  induction jsf k l with
  | nil => exact h.zero
  | cons c cs ih => exact h.addTrit hP hP' c (h.dbl ih)

theorem simSigned {sim : Nat → α → Nat → α → α} {sim' : Nat → β → Nat → β → β}
    (hsim : ∀ (k l : Nat) {P P' : α} {Q Q' : β}, R P Q → R P' Q' → R (sim k P l P') (sim' k Q l Q'))
    (k l : Int) {P P' : α} {Q Q' : β} (hP : R P Q) (hP' : R P' Q') :
    R (Machine.simSigned o sim k P l P') (Machine.simSigned o' sim' k Q l Q') :=
  hsim _ _ (h.signPoint k hP) (h.signPoint l hP')

theorem halveLoop {half : α → α} {half' : β → β} (hhalf : ∀ {P : α} {Q : β}, R P Q → R (half P) (half' Q))
    {P : α} {Q : β} (hP : R P Q) (ds : List Int) : ∀ {A : α} {B : β}, R A B →
    R (Machine.halveLoop o half P ds A) (Machine.halveLoop o' half' Q ds B) := by
  induction ds with
  | nil => exact id
  | cons d ds ih =>
    intro A B hA
    refine ih ?_
    split
    · exact h.add (hhalf hA) hP
    · split
      · exact h.add (hhalf hA) (h.neg hP)
      · exact hhalf hA

theorem mulHalve {half : α → α} {half' : β → β} (hhalf : ∀ {P : α} {Q : β}, R P Q → R (half P) (half' Q))
    (n : Nat) (k : Int) {P : α} {Q : β} (hP : R P Q) :
    R (Machine.mulHalve o half n k P) (Machine.mulHalve o' half' n k Q) := by
  unfold Machine.mulHalve
  dsimp only
  split
  · exact h.halveLoop hhalf hP _ h.zero
  · exact h.add (h.halveLoop hhalf hP _ h.zero) (h.mulSigned h.mulBasic _ hP)

theorem tauSum {phi : α → α} {phi' : β → β} (hphi : ∀ {P : α} {Q : β}, R P Q → R (phi P) (phi' Q))
    (ds : List Int) : ∀ {P : α} {Q : β}, R P Q → R (Machine.tauSum o phi ds P) (Machine.tauSum o' phi' ds Q) := by
  induction ds with
  | nil => exact fun _ => h.zero
  | cons d ds ih => exact fun hP => h.add (h.mulSigned h.mulBasic d hP) (ih (hphi hP))

end OpsRel

end related

/-! The operations of a commutative group, and the loops there. -/

section group

variable {A : Type} [AddCommGroup A]

/-- The operations that a multiplication loop uses, of a commutative group. -/
def groupOps (A : Type) [AddCommGroup A] : PtOps A where
  zero := 0
  neg := Neg.neg
  add := (· + ·)
  dbl := fun P => P + P

theorem mulBits_group (P : A) (k t : Nat) : ∀ R : A,
    mulBits (groupOps A) P k t R = 2 ^ t • R + (k % 2 ^ t) • P := by
  induction t with
  | zero => simp [mulBits, Nat.mod_one]
  | succ t ih =>
    intro R
    have hsplit : k % 2 ^ (t + 1) = k % 2 ^ t + 2 ^ t * (k / 2 ^ t % 2) := by rw [pow_succ, Nat.mod_mul]
    rw [mulBits, ih, hsplit, pow_succ, add_smul, mul_smul, mul_smul, two_smul]
    split
    · rename_i hbit
      rw [hbit, one_smul]
      show 2 ^ t • (R + R + P) + _ = _
      rw [smul_add]
      abel
    · rename_i hbit
      rw [show k / 2 ^ t % 2 = 0 by omega, zero_smul, smul_zero, add_zero]
      rfl

theorem mulBasic_group (k : Nat) (P : A) : mulBasic (groupOps A) k P = k • P := by
  unfold mulBasic
  split
  · rename_i h
    rw [h, zero_smul]
    rfl
  · rename_i h
    have hle := two_pow_le_of_bitlen h
    have hlt := lt_two_pow_bitlen k
    have hlen : bitlen k = bitlen k - 1 + 1 := by
      have : bitlen k ≠ 0 := fun h0 => by rw [h0] at hlt; omega
      omega
    rw [mulBits_group, ← add_smul]
    congr 1
    rw [hlen, pow_succ] at hlt
    rw [Nat.mod_eq_sub_mod hle, Nat.mod_eq_of_lt (by omega)]
    omega

theorem mulSigned_group {mul : Nat → A → A} (hmul : ∀ k P, mul k P = k • P) (k : Int) (P : A) :
    mulSigned (groupOps A) mul k P = k • P := by
  unfold mulSigned
  split
  · rename_i h
    rw [hmul]
    show k.natAbs • -P = k • P
    rw [smul_neg, ← natCast_zsmul, ← neg_smul]
    congr 1
    omega
  · rw [hmul, ← natCast_zsmul]
    congr 1
    omega

theorem signPoint_group (k : Int) (P : A) : k.natAbs • signPoint (groupOps A) k P = k • P :=
  mulSigned_group (mul := fun k P => k • P) (fun _ _ => rfl) k P ▸ by
    unfold signPoint mulSigned
    split <;> rfl

theorem tableFrom_group (D : A) (n : Nat) : ∀ (T : A) (i : Nat), i < n →
    (tableFrom (groupOps A) D n T).getD i 0 = T + i • D := by
  induction n with
  | zero => exact fun _ _ hi => absurd hi (Nat.not_lt_zero _)
  | succ n ih =>
    intro T i hi
    cases i with
    | zero => simp [tableFrom]
    | succ i =>
      show (tableFrom (groupOps A) D n (T + D)).getD i 0 = _
      rw [ih _ _ (by omega), succ_nsmul']
      abel

theorem oddTable_group (w : Nat) (P : A) {i : Nat} (hi : i < 2 ^ (w - 2)) :
    (oddTable (groupOps A) w P).getD i 0 = (2 * i + 1) • P := by
  rw [oddTable, tableFrom_group _ _ _ _ hi]
  show P + i • (P + P) = _
  rw [← two_smul ℕ P, ← mul_smul, add_smul, one_smul, Nat.mul_comm, add_comm]

/-- The digits that a table of width w serves. -/
def TableDigit (w : Nat) (d : Int) : Prop := d = 0 ∨ (d % 2 = 1 ∧ d.natAbs < 2 ^ (w - 1))

theorem TableDigit.index {w : Nat} (hw : 2 ≤ w) {d : Int} (h : TableDigit w d) (h0 : d ≠ 0) :
    (d.natAbs - 1) / 2 < 2 ^ (w - 2) ∧ 2 * ((d.natAbs - 1) / 2) + 1 = d.natAbs := by
  obtain ⟨hodd, hlt⟩ := h.resolve_left h0
  have hpow : 2 ^ (w - 1) = 2 * 2 ^ (w - 2) := by rw [← pow_succ']; congr 1; omega
  omega

theorem addDigit_group {w : Nat} (hw : 2 ≤ w) (P : A) {d : Int} (hd : TableDigit w d) (R : A) :
    addDigit (groupOps A) (oddTable (groupOps A) w P) d R = R + d • P := by
  unfold addDigit
  by_cases h0 : d = 0
  · simp [h0]
  obtain ⟨hlt, hidx⟩ := hd.index hw h0
  show (if d > 0 then R + (oddTable (groupOps A) w P).getD ((d.natAbs - 1) / 2) 0
    else if d < 0 then R + -(oddTable (groupOps A) w P).getD ((d.natAbs - 1) / 2) 0 else R) = R + d • P
  rw [oddTable_group w P hlt, hidx, ← natCast_zsmul, ← neg_smul]
  split
  · congr 2
    omega
  · rw [if_pos (by omega)]
    congr 2
    omega

theorem leftToRight_group {w : Nat} (hw : 2 ≤ w) (P : A) : ∀ ds : List Int, (∀ d ∈ ds, TableDigit w d) →
    leftToRight (groupOps A) (oddTable (groupOps A) w P) ds = binaryValue ds • P := by
  intro ds
  induction ds with
  | nil => exact fun _ => (zero_smul ℤ P).symm
  | cons d ds ih =>
    intro h
    obtain ⟨hd, hds⟩ := List.forall_mem_cons.mp h
    rw [leftToRight, addDigit_group hw P hd, ih hds, binaryValue, add_smul, mul_smul, two_smul ℤ, add_comm]
    rfl

theorem naf_tableDigit {w : Nat} (hw : 2 ≤ w) (k : Nat) : ∀ d ∈ naf w k, TableDigit w d := nafLoop_digits hw _ _

theorem mulLwnaf_group {w : Nat} (hw : 2 ≤ w) (k : Nat) (P : A) : mulLwnaf (groupOps A) w k P = k • P := by
  rw [mulLwnaf, leftToRight_group hw P _ (naf_tableDigit hw k), naf_value (by omega), natCast_zsmul]

/-- Adding to one slot. -/
theorem combineSlots_set (X : A) : ∀ (S : List A) (i j : Nat), i < S.length →
    combineSlots (groupOps A) (S.set i (S.getD i 0 + X)) j =
      combineSlots (groupOps A) S j + (2 * (i + j) + 1) • X := by
  intro S
  induction S with
  | nil => exact fun _ _ hi => absurd hi (Nat.not_lt_zero _)
  | cons s S ih =>
    intro i j hi
    cases i with
    | zero =>
      show mulBasic (groupOps A) (2 * j + 1) (s + X) + combineSlots (groupOps A) S (j + 1) =
        mulBasic (groupOps A) (2 * j + 1) s + combineSlots (groupOps A) S (j + 1) + _
      rw [mulBasic_group, mulBasic_group, smul_add, Nat.zero_add]
      abel
    | succ i =>
      show _ + combineSlots (groupOps A) (S.set i (S.getD i 0 + X)) (j + 1) =
        _ + combineSlots (groupOps A) S (j + 1) + _
      rw [ih i (j + 1) (by simpa using hi), ← add_assoc, show i + (j + 1) = i + 1 + j by omega]

theorem addSlot_length (S : List A) (d : Int) (Q : A) : (addSlot (groupOps A) S d Q).length = S.length := by
  unfold addSlot
  dsimp only
  split
  · exact List.length_set
  · split
    · exact List.length_set
    · rfl

theorem combineSlots_addSlot {w : Nat} (hw : 2 ≤ w) {S : List A} (hS : S.length = 2 ^ (w - 2)) {d : Int}
    (hd : TableDigit w d) (Q : A) : combineSlots (groupOps A) (addSlot (groupOps A) S d Q) 0 =
      combineSlots (groupOps A) S 0 + d • Q := by
  unfold addSlot
  by_cases h0 : d = 0
  · simp [h0]
  obtain ⟨hlt, hidx⟩ := hd.index hw h0
  rw [← hS] at hlt
  have hset (X : A) := combineSlots_set X S _ 0 hlt
  simp only [Nat.add_zero, hidx] at hset
  dsimp only
  split
  · refine (hset Q).trans ?_
    rw [← natCast_zsmul]
    congr 2
    omega
  · rw [if_pos (by omega)]
    refine (hset (-Q)).trans ?_
    rw [smul_neg, ← natCast_zsmul, ← neg_smul]
    congr 2
    omega

theorem rightToLeft_group {w : Nat} (hw : 2 ≤ w) : ∀ (ds : List Int) (S : List A) (Q : A), (∀ d ∈ ds, TableDigit w d) →
    S.length = 2 ^ (w - 2) → combineSlots (groupOps A) (rightToLeft (groupOps A) ds S Q) 0 =
      combineSlots (groupOps A) S 0 + binaryValue ds • Q := by
  intro ds
  induction ds with
  | nil => exact fun S Q _ _ => by rw [binaryValue, zero_smul, add_zero]; rfl
  | cons d ds ih =>
    intro S Q h hS
    obtain ⟨hd, hds⟩ := List.forall_mem_cons.mp h
    rw [rightToLeft, ih _ _ hds ((addSlot_length S d Q).trans hS), combineSlots_addSlot hw hS hd, binaryValue, add_smul,
      Int.mul_comm, mul_smul, two_smul ℤ, add_assoc]
    rfl

theorem combineSlots_zero (n : Nat) : ∀ j, combineSlots (groupOps A) (List.replicate n 0) j = 0 := by
  induction n with
  | zero => exact fun _ => rfl
  | succ n ih =>
    intro j
    show mulBasic (groupOps A) (2 * j + 1) 0 + combineSlots (groupOps A) (List.replicate n 0) (j + 1) = 0
    rw [ih, mulBasic_group, smul_zero, add_zero]

theorem mulRwnaf_group {w : Nat} (hw : 2 ≤ w) (k : Nat) (P : A) : mulRwnaf (groupOps A) w k P = k • P := by
  have hzero : combineSlots (groupOps A) (List.replicate (2 ^ (w - 2)) (groupOps A).zero) 0 = 0 := combineSlots_zero _ 0
  rw [mulRwnaf, rightToLeft_group hw _ _ _ (naf_tableDigit hw k) List.length_replicate, naf_value (by omega),
    natCast_zsmul, hzero, zero_add]

theorem dblTimes_group (n : Nat) : ∀ R : A, dblTimes (groupOps A) n R = 2 ^ n • R := by
  induction n with
  | zero => exact fun R => by rw [pow_zero, one_smul]; rfl
  | succ n ih =>
    intro R
    rw [dblTimes, ih, pow_succ, mul_smul, two_smul]
    rfl

/-- The value of digits in base 2^w, position 0 first. -/
def radixValue (w : Nat) : List Nat → Nat
  | [] => 0
  | d :: ds => d + 2 ^ w * radixValue w ds

theorem radixValue_eq_sum (w : Nat) : ∀ ds : List Nat,
    radixValue w ds = ∑ i ∈ Finset.range ds.length, ds.getD i 0 * 2 ^ (w * i) := by
  intro ds
  induction ds with
  | nil => rfl
  | cons d ds ih =>
    rw [radixValue, ih, List.length_cons, Finset.sum_range_succ', Finset.mul_sum, add_comm]
    congr 1
    · refine Finset.sum_congr rfl fun i _ => ?_
      rw [List.getD_cons_succ, Nat.mul_succ, pow_add]
      ring
    · simp

theorem radixValue_win {w : Nat} (hw : 1 ≤ w) (k : Nat) : radixValue w (win w k) = k :=
  (radixValue_eq_sum w _).trans (win_value hw k).symm

theorem trickLoop_cons (w : Nat) (P Q : A) (i j : Nat) (cs : List (Nat × Nat)) :
    trickLoop (groupOps A) w P Q ((i, j) :: cs) =
      2 ^ w • trickLoop (groupOps A) w P Q cs + (i • P + j • Q) := by
  rw [trickLoop, dblTimes_group, trickEntry, mulBasic_group, mulBasic_group]
  rfl

theorem trickLoop_group (w : Nat) (P Q : A) : ∀ ds es : List Nat,
    trickLoop (groupOps A) w P Q (columns 0 ds es) = radixValue w ds • P + radixValue w es • Q := by
  intro ds
  induction ds with
  | nil =>
    intro es
    rw [radixValue, zero_smul, zero_add]
    induction es with
    | nil => exact (zero_smul ℕ Q).symm
    | cons e es ih =>
      refine (trickLoop_cons w P Q 0 e _).trans ?_
      rw [columns] at ih
      rw [ih, radixValue, add_smul, mul_smul, zero_smul, zero_add, add_comm]
  | cons d ds ih =>
    intro es
    rw [columns, trickLoop_cons, ih]
    have hes : radixValue w es = es.headD 0 + 2 ^ w * radixValue w es.tail := by cases es <;> rfl
    rw [hes, radixValue, add_smul, add_smul, mul_smul, mul_smul, smul_add]
    abel

theorem simTrick_group {w : Nat} (hw : 1 ≤ w) (k l : Nat) (P Q : A) :
    simTrick (groupOps A) w k P l Q = k • P + l • Q := by
  rw [simTrick, trickLoop_group, radixValue_win hw, radixValue_win hw]

theorem interLoop_cons {w : Nat} (hw : 2 ≤ w) (P Q : A) {d e : Int} (hd : TableDigit w d) (he : TableDigit w e)
    (cs : List (Int × Int)) :
    interLoop (groupOps A) (oddTable (groupOps A) w P) (oddTable (groupOps A) w Q) ((d, e) :: cs) =
      (2 : Int) • interLoop (groupOps A) (oddTable (groupOps A) w P) (oddTable (groupOps A) w Q) cs + (d • P + e • Q) := by
  rw [interLoop, addDigit_group hw P hd, addDigit_group hw Q he, two_smul ℤ, ← add_assoc]
  rfl

theorem interLoop_group {w : Nat} (hw : 2 ≤ w) (P Q : A) : ∀ ds es : List Int, (∀ d ∈ ds, TableDigit w d) →
    (∀ e ∈ es, TableDigit w e) →
    interLoop (groupOps A) (oddTable (groupOps A) w P) (oddTable (groupOps A) w Q) (columns 0 ds es) =
      binaryValue ds • P + binaryValue es • Q := by
  intro ds
  induction ds with
  | nil =>
    intro es _ hes
    rw [binaryValue, zero_smul, zero_add]
    induction es with
    | nil => exact (zero_smul ℤ Q).symm
    | cons e es ih =>
      obtain ⟨he, hes⟩ := List.forall_mem_cons.mp hes
      refine (interLoop_cons hw P Q (.inl rfl) he _).trans ?_
      have ih := ih hes
      rw [columns] at ih
      rw [ih, binaryValue, add_smul, mul_smul, zero_smul, zero_add, add_comm]
  | cons d ds ih =>
    intro es hds hes
    obtain ⟨hd, hds⟩ := List.forall_mem_cons.mp hds
    have hhead : TableDigit w (es.headD 0) := by
      cases es with
      | nil => exact .inl rfl
      | cons e es => exact hes e List.mem_cons_self
    have hval : binaryValue es = es.headD 0 + 2 * binaryValue es.tail := by cases es <;> rfl
    rw [columns, interLoop_cons hw P Q hd hhead, ih es.tail hds fun e he => hes e (List.mem_of_mem_tail he), hval,
      binaryValue, add_smul, add_smul, mul_smul, mul_smul, smul_add]
    abel

theorem simInter_group {w : Nat} (hw : 2 ≤ w) (k l : Nat) (P Q : A) :
    simInter (groupOps A) w k P l Q = k • P + l • Q := by
  rw [simInter, interLoop_group hw P Q _ _ (naf_tableDigit hw k) (naf_tableDigit hw l), naf_value (by omega),
    naf_value (by omega), natCast_zsmul, natCast_zsmul]

theorem addTrit_group (P Q : A) {c : Int × Int} (hu : c.1 = -1 ∨ c.1 = 0 ∨ c.1 = 1) (hv : c.2 = -1 ∨ c.2 = 0 ∨ c.2 = 1)
    (R : A) : addTrit (groupOps A) P Q c R = R + (c.1 • P + c.2 • Q) := by
  obtain ⟨u, v⟩ := c
  obtain rfl | rfl | rfl : u = -1 ∨ u = 0 ∨ u = 1 := hu
  all_goals
    obtain rfl | rfl | rfl : v = -1 ∨ v = 0 ∨ v = 1 := hv
    all_goals
      simp only [addTrit, groupOps, neg_smul, one_smul, zero_smul, zero_add, add_zero]
  all_goals abel

theorem jointLoop_group (P Q : A) : ∀ cs : List (Int × Int),
    (∀ c ∈ cs, (c.1 = -1 ∨ c.1 = 0 ∨ c.1 = 1) ∧ (c.2 = -1 ∨ c.2 = 0 ∨ c.2 = 1)) →
    jointLoop (groupOps A) P Q cs = binaryValue (cs.map Prod.fst) • P + binaryValue (cs.map Prod.snd) • Q := by
  intro cs
  induction cs with
  | nil =>
    intro _
    rw [List.map_nil, List.map_nil, binaryValue, zero_smul, zero_smul, add_zero]
    rfl
  | cons c cs ih =>
    intro h
    obtain ⟨⟨hu, hv⟩, hcs⟩ := List.forall_mem_cons.mp h
    rw [jointLoop, addTrit_group P Q hu hv, ih hcs, List.map_cons, List.map_cons, binaryValue, binaryValue, add_smul,
      add_smul, mul_smul, mul_smul, two_smul ℤ, two_smul ℤ]
    simp only [groupOps]
    abel

theorem jsf_trit (k l : Nat) : ∀ c ∈ jsf k l, (c.1 = -1 ∨ c.1 = 0 ∨ c.1 = 1) ∧ (c.2 = -1 ∨ c.2 = 0 ∨ c.2 = 1) := by
  rw [jsf_eq]
  exact jsfPairs_trit _ _ _

theorem simJoint_group (k l : Nat) (P Q : A) : simJoint (groupOps A) k P l Q = k • P + l • Q := by
  obtain ⟨hk, hl⟩ := jsf_value k l
  rw [simJoint, jointLoop_group P Q _ (jsf_trit k l), hk, hl, natCast_zsmul, natCast_zsmul]

theorem simSigned_group {sim : Nat → A → Nat → A → A} (hsim : ∀ k P l Q, sim k P l Q = k • P + l • Q) (k : Int) (P : A)
    (l : Int) (Q : A) : simSigned (groupOps A) sim k P l Q = k • P + l • Q := by
  rw [simSigned, hsim, signPoint_group, signPoint_group]

end group

/-! Points that are the image of a group. -/

section image

variable {α A : Type} [AddCommGroup A] {o : PtOps α} {g : A → α}

/-- The points `g P` compute as the elements of the group do. -/
theorem opsRel_of_image (h : GroupImage o A g) : OpsRel (fun x P => x = g P) o (groupOps A) where
  zero := h.zero.symm
  neg := by
    rintro _ Q rfl
    exact (h.neg Q).symm
  add := by
    rintro _ Q _ Q' rfl rfl
    exact (h.add Q Q').symm
  dbl := by
    rintro _ Q rfl
    exact (h.dbl Q).symm

end image

/-- Settles O50. -/
theorem loopsInAnyGroup : Obligations.LoopsInAnyGroup := by
  unfold Obligations.LoopsInAnyGroup
  intro α A _ o g hg P Q k l w hw
  have h := opsRel_of_image hg
  refine ⟨?_, fun hw2 => ⟨?_, ?_, ?_⟩, ?_, ?_⟩
  · rw [h.mulBasic k rfl, mulBasic_group]
  · rw [h.mulLwnaf w k rfl, mulLwnaf_group hw2]
  · rw [h.mulRwnaf w k rfl, mulRwnaf_group hw2]
  · rw [h.simInter w k l rfl rfl, simInter_group hw2]
  · rw [h.simTrick w k l rfl rfl, simTrick_group hw]
  · rw [h.simJoint k l rfl rfl, simJoint_group]

end Sys2Proof.Proofs.Loops
end

section
/-! PROOFS. The datapath of the prime field (43_fp R162 to R164): the column multiplier, Montgomery reduction and
sparse reduction compute what the rules say, their accumulator never overflowing. -/

set_option Elab.async false

namespace Sys2Proof.Proofs.Datapath

open Sys2Proof.Machine Sys2Proof.Proofs.Context Sys2Proof.Proofs.Recoding

/-! Digits as sums. -/

/-- A value of n digits is the sum of its digits (00_scope R18). -/
theorem sum_digit {W n v : Nat} (h : v < 2 ^ (W * n)) : ∑ i ∈ Finset.range n, digit W v i * (2 ^ W) ^ i = v := by
  have hsum := sum_win W v n
  rw [Nat.mod_eq_of_lt h] at hsum
  simpa only [digit, ← pow_mul] using hsum

theorem digit_eq_zero {W n v i : Nat} (h : v < 2 ^ (W * n)) (hi : n ≤ i) : digit W v i = 0 := by
  rw [digit, Nat.div_eq_of_lt, Nat.zero_mod]
  exact h.trans_le (Nat.pow_le_pow_right (by norm_num) (Nat.mul_le_mul_left W hi))

/-- Column i of a product of digit sequences. -/
def column (x y : Nat → Nat) (i : Nat) : Nat := ∑ j ∈ Finset.range (i + 1), x j * y (i - j)

/-- The columns add up to the product. -/
theorem sum_column {n : Nat} (hn : 0 < n) {x y : Nat → Nat} (hx : ∀ j, n ≤ j → x j = 0) (hy : ∀ j, n ≤ j → y j = 0)
    (B : Nat) : ∑ i ∈ Finset.range (2 * n - 1), column x y i * B ^ i =
      (∑ i ∈ Finset.range n, x i * B ^ i) * ∑ i ∈ Finset.range n, y i * B ^ i := by
  -- The columns are the coefficients of a product of polynomials.
  have hcoeff {z : Nat → Nat} (hz : ∀ j, n ≤ j → z j = 0) (j : Nat) :
      (∑ i ∈ Finset.range n, Polynomial.monomial i (z i)).coeff j = z j := by
    rw [Polynomial.finsetSum_coeff]
    simp only [Polynomial.coeff_monomial, Finset.sum_ite_eq', Finset.mem_range]
    split
    · rfl
    · exact (hz j (by omega)).symm
  have hdeg (z : Nat → Nat) : (∑ i ∈ Finset.range n, Polynomial.monomial i (z i)).natDegree ≤ n - 1 :=
    Polynomial.natDegree_sum_le_of_forall_le _ _ fun i hi =>
      (Polynomial.natDegree_monomial_le _).trans (Nat.le_sub_one_of_lt (Finset.mem_range.mp hi))
  have heval (z : Nat → Nat) : (∑ i ∈ Finset.range n, Polynomial.monomial i (z i)).eval B =
      ∑ i ∈ Finset.range n, z i * B ^ i := by
    simp [Polynomial.eval_finsetSum]
  rw [← heval x, ← heval y, ← Polynomial.eval_mul, Polynomial.eval_eq_sum_range'
    (Nat.lt_of_le_of_lt Polynomial.natDegree_mul_le (show _ < 2 * n - 1 by have := hdeg x; have := hdeg y; omega))]
  refine Finset.sum_congr rfl fun i _ => ?_
  rw [Polynomial.coeff_mul, Finset.Nat.sum_antidiagonal_eq_sum_range_succ_mk, column]
  simp only [hcoeff hx, hcoeff hy]

/-- A sum over a range of positions, as the loops take it. -/
theorem sum_range' (f : Nat → Nat) (lo hi : Nat) :
    ((List.range' lo (hi - lo)).map f).sum = ∑ j ∈ Finset.Ico lo hi, f j := rfl

/-- The columns need only the places where both digits exist. -/
theorem column_eq_sum {n : Nat} {x y : Nat → Nat} (hx : ∀ j, n ≤ j → x j = 0) (hy : ∀ j, n ≤ j → y j = 0)
    (i : Nat) : column x y i =
      ((List.range' (i + 1 - n) (min (i + 1) n - (i + 1 - n))).map fun j => x j * y (i - j)).sum := by
  rw [sum_range', column]
  refine (Finset.sum_subset (fun j hj => ?_) fun j hj hn => ?_).symm
  · rw [Finset.mem_Ico] at hj
    exact Finset.mem_range.mpr (by omega)
  · rw [Finset.mem_range] at hj
    rw [Finset.mem_Ico] at hn
    rcases Nat.lt_or_ge j n with h | h
    · rw [hy (i - j) (by omega), Nat.mul_zero]
    · rw [hx j h, Nat.zero_mul]

/-! The accumulator. -/

theorem accAdd_of_lt {W acc t : Nat} (h : acc + t < 2 ^ (3 * W)) : accAdd W acc t = acc + t := Nat.mod_eq_of_lt h

/-- Products are added exactly while their sum fits. -/
theorem foldl_accAdd {W : Nat} (f : Nat → Nat) : ∀ (l : List Nat) (acc : Nat), acc + (l.map f).sum < 2 ^ (3 * W) →
    l.foldl (fun acc j => accAdd W acc (f j)) acc = acc + (l.map f).sum := by
  intro l
  induction l with
  | nil => exact fun _ _ => rfl
  | cons j l ih =>
    intro acc h
    rw [List.map_cons, List.sum_cons, ← Nat.add_assoc] at h
    rw [List.foldl_cons, accAdd_of_lt (by omega), ih _ h, List.map_cons, List.sum_cons, Nat.add_assoc]

/-- At most `n` products of digits. -/
theorem sum_products_le {B : Nat} {f : Nat → Nat} {l : List Nat} {n : Nat} (hl : l.length ≤ n)
    (hf : ∀ j ∈ l, f j ≤ (B - 1) * (B - 1)) : (l.map f).sum ≤ n * ((B - 1) * (B - 1)) := by
  have h := List.sum_le_card_nsmul (l.map f) ((B - 1) * (B - 1)) (List.forall_mem_map.mpr hf)
  rw [List.length_map, smul_eq_mul] at h
  exact h.trans (Nat.mul_le_mul_right _ hl)

/-- The bound on the accumulator that every column keeps: what enters is at most n·2^W, and n products and a digit
more fit in three digits (43_fp R162). -/
theorem acc_bound {B n acc t d : Nat} (hB : n + 1 < B) (hn : 0 < n) (hacc : acc ≤ n * B)
    (ht : t ≤ n * ((B - 1) * (B - 1))) (hd : d ≤ B - 1) :
    acc + t + d < B ^ 3 ∧ (acc + t + d) / B ≤ n * B := by
  obtain ⟨c, rfl⟩ : ∃ c, B = c + 1 := ⟨B - 1, by omega⟩
  rw [Nat.add_sub_cancel] at ht hd
  have hnc : n + 1 ≤ c := by omega
  constructor
  · have : n * (c * c) ≤ (c - 1) * (c * c) := Nat.mul_le_mul_right _ (by omega)
    obtain ⟨e, rfl⟩ : ∃ e, c = e + 1 := ⟨c - 1, by omega⟩
    rw [Nat.add_sub_cancel] at this
    have : n * (e + 1 + 1) ≤ e * (e + 1 + 1) := Nat.mul_le_mul_right _ (by omega)
    nlinarith
  · refine Nat.div_le_of_le_mul ?_
    nlinarith

/-! The column multiplier (43_fp R162). -/

section comba

variable {W n a b : Nat}

theorem digit_mul_le (a b i j : Nat) : digit W a i * digit W b j ≤ (2 ^ W - 1) * (2 ^ W - 1) :=
  Nat.mul_le_mul (Nat.le_sub_one_of_lt (digit_lt W a i)) (Nat.le_sub_one_of_lt (digit_lt W b j))

/-- A column of the multiplier is added exactly. -/
theorem combaColumn_eq (hn : 0 < n) (hW : n + 1 < 2 ^ W) (ha : a < 2 ^ (W * n)) (hb : b < 2 ^ (W * n)) {i acc : Nat}
    (hacc : acc ≤ n * 2 ^ W) : combaColumn W n a b i acc = acc + column (digit W a) (digit W b) i ∧
      combaColumn W n a b i acc / 2 ^ W ≤ n * 2 ^ W := by
  have hcol := column_eq_sum (fun _ => digit_eq_zero ha) (fun _ => digit_eq_zero hb) i
  have hle := sum_products_le (B := 2 ^ W) (l := List.range' (i + 1 - n) (min (i + 1) n - (i + 1 - n)))
    (f := fun j => digit W a j * digit W b (i - j)) (n := n) (by rw [List.length_range']; omega)
    fun j _ => digit_mul_le a b j (i - j)
  obtain ⟨hlt, hdiv⟩ := acc_bound (d := 0) hW hn hacc hle (Nat.zero_le _)
  rw [← pow_mul, Nat.mul_comm W 3] at hlt
  have heq : combaColumn W n a b i acc = acc + column (digit W a) (digit W b) i := by
    rw [hcol]
    exact foldl_accAdd _ _ _ hlt
  rw [heq, hcol]
  exact ⟨rfl, hdiv⟩

/-- The loop returns what the accumulator and the columns to come add up to. -/
theorem combaLoop_eq (hn : 0 < n) (hW : n + 1 < 2 ^ W) (ha : a < 2 ^ (W * n)) (hb : b < 2 ^ (W * n)) (k : Nat) :
    ∀ i acc : Nat, acc ≤ n * 2 ^ W → combaLoop W n a b k i acc =
      (acc + ∑ t ∈ Finset.range k, column (digit W a) (digit W b) (i + t) * (2 ^ W) ^ t) % (2 ^ W) ^ (k + 1) := by
  induction k with
  | zero =>
    intro i acc _
    rw [combaLoop, Finset.range_zero, Finset.sum_empty, Nat.add_zero, Nat.zero_add, pow_one]
  | succ k ih =>
    intro i acc hacc
    obtain ⟨heq, hdiv⟩ := combaColumn_eq hn hW ha hb (i := i) hacc
    rw [combaLoop, ih _ _ hdiv, heq, Finset.sum_range_succ', pow_succ' (2 ^ W) (k + 1), Nat.mod_mul, Nat.add_zero i, pow_zero,
      Nat.mul_one]
    have hsum : ∑ t ∈ Finset.range k, column (digit W a) (digit W b) (i + (t + 1)) * (2 ^ W) ^ (t + 1) =
        2 ^ W * ∑ t ∈ Finset.range k, column (digit W a) (digit W b) (i + 1 + t) * (2 ^ W) ^ t := by
      rw [Finset.mul_sum]
      refine Finset.sum_congr rfl fun t _ => ?_
      rw [show i + (t + 1) = i + 1 + t by omega, pow_succ]
      ring
    rw [hsum, Nat.add_comm (2 ^ W * _), ← Nat.add_assoc, Nat.add_mul_mod_self_left,
      Nat.add_mul_div_left _ _ (by positivity)]

end comba

/-- Settles O34. -/
theorem combaIsExact : Obligations.CombaIsExact := by
  unfold Obligations.CombaIsExact
  intro W n a b hW hn ha hb
  rcases Nat.eq_zero_or_pos n with rfl | hpos
  · obtain ⟨rfl, rfl⟩ : a = 0 ∧ b = 0 := by simpa using And.intro ha hb
    rfl
  have hcols := sum_column hpos (fun _ => digit_eq_zero ha) (fun _ => digit_eq_zero hb) (2 ^ W)
  rw [sum_digit ha, sum_digit hb] at hcols
  rw [comba, combaLoop_eq hpos hn ha hb _ _ _ (Nat.zero_le _)]
  simp only [Nat.zero_add, hcols]
  refine Nat.mod_eq_of_lt ?_
  calc a * b < 2 ^ (W * n) * 2 ^ (W * n) := Nat.mul_lt_mul'' ha hb
    _ = (2 ^ W) ^ (2 * n - 1 + 1) := by rw [← pow_add, ← pow_mul, ← Nat.mul_add]; congr 2; omega

/-! Montgomery reduction (43_fp R163). -/

section rdcn

variable {W n m u a : Nat}

/-- The quotient digits found so far, as a sequence. -/
def quotient (c : List Nat) (j : Nat) : Nat := c.getD j 0

theorem quotient_eq_zero {c : List Nat} {j : Nat} (h : c.length ≤ j) : quotient c j = 0 :=
  List.getD_eq_default _ _ h

theorem quotient_le {c : List Nat} {B : Nat} (h : ∀ q ∈ c, q < B) (j : Nat) : quotient c j ≤ B - 1 := by
  rcases Nat.lt_or_ge j c.length with hj | hj
  · rw [quotient, List.getD_eq_getElem _ _ hj]
    exact Nat.le_sub_one_of_lt (h _ (List.getElem_mem hj))
  · rw [quotient_eq_zero hj]
    exact Nat.zero_le _

/-- A further quotient digit does not change the columns before it. -/
theorem column_append {c : List Nat} (q : Nat) (y : Nat → Nat) {t : Nat} (h : t < c.length) :
    column (quotient (c ++ [q])) y t = column (quotient c) y t := by
  refine Finset.sum_congr rfl fun j hj => ?_
  rw [Finset.mem_range] at hj
  rw [quotient, quotient, List.getD_append _ _ _ _ (by omega)]

theorem column_append_last (c : List Nat) (q : Nat) (y : Nat → Nat) : column (quotient (c ++ [q])) y c.length =
    ∑ j ∈ Finset.range c.length, quotient c j * y (c.length - j) + q * y 0 := by
  rw [column, Finset.sum_range_succ]
  congr 1
  · refine Finset.sum_congr rfl fun j hj => ?_
    rw [Finset.mem_range] at hj
    rw [quotient, quotient, List.getD_append _ _ _ _ hj]
  · rw [quotient, List.getD_append_right _ _ _ _ (Nat.le_refl _), Nat.sub_self]
    rfl

/-- The sum of the products of one column of the reduction. -/
theorem rdcnColumn_eq {i lo count acc : Nat} {c : List Nat}
    (h : acc + ((List.range' lo count).map fun j => quotient c j * digit W m (i - j)).sum < 2 ^ (3 * W)) :
    rdcnColumn W m i lo count c acc = acc + ((List.range' lo count).map fun j => quotient c j * digit W m (i - j)).sum :=
  foldl_accAdd _ _ _ h

theorem quotient_mul_le {c : List Nat} (hc : ∀ q ∈ c, q < 2 ^ W) (i j : Nat) :
    quotient c i * digit W m j ≤ (2 ^ W - 1) * (2 ^ W - 1) :=
  Nat.mul_le_mul (quotient_le hc i) (Nat.le_sub_one_of_lt (digit_lt W m j))

theorem digit_le (W v i : Nat) : digit W v i ≤ 2 ^ W - 1 := Nat.le_sub_one_of_lt (digit_lt W v i)

/-- The quotient digit clears the low digit of the accumulator. -/
theorem quotient_clears (hu : (m * u + 1) % 2 ^ W = 0) (acc : Nat) :
    2 ^ W ∣ acc + acc % 2 ^ W * u % 2 ^ W * digit W m 0 := by
  have hm : digit W m 0 ≡ m [MOD 2 ^ W] := by
    rw [digit, Nat.mul_zero, pow_zero, Nat.div_one]
    exact Nat.mod_modEq _ _
  have hq : acc % 2 ^ W * u % 2 ^ W ≡ acc * u [MOD 2 ^ W] :=
    (Nat.mod_modEq _ _).trans ((Nat.mod_modEq _ _).mul_right u)
  refine (Nat.modEq_zero_iff_dvd).mp ?_
  calc acc + acc % 2 ^ W * u % 2 ^ W * digit W m 0 ≡ acc + acc * u * m [MOD 2 ^ W] := (hq.mul hm).add_left acc
    _ ≡ acc * (m * u + 1) [MOD 2 ^ W] := by
        rw [show acc * (m * u + 1) = acc + acc * u * m by ring]
    _ ≡ acc * 0 [MOD 2 ^ W] := Nat.ModEq.mul_left acc (hu.trans (Nat.zero_mod _).symm)

/-- What the first loop keeps: after i columns the accumulator holds their sum, shifted by i digits. -/
structure Reduced (W n m a i : Nat) (c : List Nat) (acc : Nat) : Prop where
  length : c.length = i
  digits : ∀ q ∈ c, q < 2 ^ W
  bound : acc ≤ n * 2 ^ W
  sum : acc * (2 ^ W) ^ i =
    ∑ t ∈ Finset.range i, (column (quotient c) (digit W m) t + digit W a t) * (2 ^ W) ^ t

/-- One column of the first loop. -/
theorem reduced_step (hW : n + 1 < 2 ^ W) (hu : (m * u + 1) % 2 ^ W = 0) {i acc : Nat} {c : List Nat} (hi : i < n)
    (h : Reduced W n m a i c acc) : ∃ q acc', Reduced W n m a (i + 1) (c ++ [q]) acc' ∧
      ∀ k, rdcnQuotients W m u a (k + 1) i c acc = rdcnQuotients W m u a k (i + 1) (c ++ [q]) acc' := by
  obtain ⟨rfl, hdig, hbound, hsum⟩ := h
  have hn : 0 < n := by omega
  have hcube : (2 ^ W) ^ 3 = 2 ^ (3 * W) := by rw [← pow_mul, Nat.mul_comm]
  -- The column before its quotient digit.
  have hrange : ((List.range' 0 c.length).map fun j => quotient c j * digit W m (c.length - j)).sum =
      ∑ j ∈ Finset.range c.length, quotient c j * digit W m (c.length - j) := by
    rw [Finset.range_eq_Ico]
    exact sum_range' _ 0 c.length
  have hle := sum_products_le (B := 2 ^ W) (l := List.range' 0 c.length)
    (f := fun j => quotient c j * digit W m (c.length - j)) (n := c.length) (by rw [List.length_range'])
    fun j _ => quotient_mul_le hdig j (c.length - j)
  rw [hrange] at hle
  generalize hC : ∑ j ∈ Finset.range c.length, quotient c j * digit W m (c.length - j) = C at *
  have hCn : C ≤ n * ((2 ^ W - 1) * (2 ^ W - 1)) := hle.trans (Nat.mul_le_mul_right _ (by omega))
  obtain ⟨hlt, -⟩ := acc_bound hW hn hbound hCn (digit_le W a c.length)
  rw [hcube] at hlt
  have hacc : accAdd W (rdcnColumn W m c.length 0 c.length c acc) (digit W a c.length) =
      acc + C + digit W a c.length := by
    rw [rdcnColumn_eq (by rw [hrange]; omega), hrange, accAdd_of_lt hlt]
  -- The quotient digit.
  generalize hA : acc + C + digit W a c.length = A at *
  generalize hq : A % 2 ^ W * u % 2 ^ W = q
  have hqlt : q < 2 ^ W := hq ▸ Nat.mod_lt _ (by positivity)
  have hCq : C + q * digit W m 0 ≤ n * ((2 ^ W - 1) * (2 ^ W - 1)) := by
    have h1 : q * digit W m 0 ≤ (2 ^ W - 1) * (2 ^ W - 1) :=
      Nat.mul_le_mul (Nat.le_sub_one_of_lt hqlt) (digit_le W m 0)
    calc C + q * digit W m 0 ≤ (c.length + 1) * ((2 ^ W - 1) * (2 ^ W - 1)) := by rw [Nat.succ_mul]; omega
      _ ≤ n * ((2 ^ W - 1) * (2 ^ W - 1)) := Nat.mul_le_mul_right _ (by omega)
  obtain ⟨hlt', hdiv⟩ := acc_bound hW hn hbound hCq (digit_le W a c.length)
  rw [hcube] at hlt'
  have hsum' : acc + (C + q * digit W m 0) + digit W a c.length = A + q * digit W m 0 := by omega
  rw [hsum'] at hlt' hdiv
  have hclear : 2 ^ W ∣ A + q * digit W m 0 := hq ▸ quotient_clears hu A
  refine ⟨q, (A + q * digit W m 0) / 2 ^ W, ⟨by simp, ?_, hdiv, ?_⟩, fun k => ?_⟩
  · intro x hx
    obtain hx | hx := List.mem_append.mp hx
    · exact hdig x hx
    · rw [List.mem_singleton] at hx
      exact hx ▸ hqlt
  · have hold : ∑ t ∈ Finset.range c.length, (column (quotient (c ++ [q])) (digit W m) t + digit W a t) * (2 ^ W) ^ t =
        acc * (2 ^ W) ^ c.length := by
      rw [hsum]
      refine Finset.sum_congr rfl fun t ht => ?_
      rw [column_append q _ (Finset.mem_range.mp ht)]
    rw [Finset.sum_range_succ, hold, column_append_last, hC, pow_succ', ← Nat.mul_assoc, Nat.div_mul_cancel hclear,
      ← hsum', ← Nat.add_mul]
    congr 1
    omega
  · rw [rdcnQuotients, hacc, hq, accAdd_of_lt hlt']

/-- The first loop, from any column on. -/
theorem rdcnQuotients_spec (hW : n + 1 < 2 ^ W) (hu : (m * u + 1) % 2 ^ W = 0) (k : Nat) :
    ∀ (i : Nat) (c : List Nat) (acc : Nat), i + k = n → Reduced W n m a i c acc →
      Reduced W n m a n (rdcnQuotients W m u a k i c acc).1 (rdcnQuotients W m u a k i c acc).2 := by
  induction k with
  | zero =>
    rintro i c acc rfl h
    exact h
  | succ k ih =>
    intro i c acc hk h
    obtain ⟨q, acc', hr, he⟩ := reduced_step hW hu (by omega) h
    rw [he k]
    exact ih _ _ _ (by omega) hr

/-- The second loop returns what the accumulator and the columns to come add up to. -/
theorem rdcnResult_eq (hn : 0 < n) (hW : n + 1 < 2 ^ W) (hm : m < 2 ^ (W * n)) {c : List Nat} (hlen : c.length = n)
    (hdig : ∀ q ∈ c, q < 2 ^ W) (k : Nat) : ∀ i acc : Nat, i + k = 2 * n - 1 → n ≤ i → acc ≤ n * 2 ^ W →
      rdcnResult W n m a c k i acc =
        acc + ∑ t ∈ Finset.range k, (column (quotient c) (digit W m) (i + t) + digit W a (i + t)) * (2 ^ W) ^ t +
          digit W a (2 * n - 1) * (2 ^ W) ^ k := by
  have hcube : (2 ^ W) ^ 3 = 2 ^ (3 * W) := by rw [← pow_mul, Nat.mul_comm]
  induction k with
  | zero =>
    intro i acc _ _ hacc
    obtain ⟨hlt, -⟩ := acc_bound (t := 0) hW hn hacc (Nat.zero_le _) (digit_le W a (2 * n - 1))
    rw [hcube, Nat.add_zero] at hlt
    rw [rdcnResult, accAdd_of_lt hlt, Finset.range_zero, Finset.sum_empty, Nat.add_zero, pow_zero, Nat.mul_one]
  | succ k ih =>
    intro i acc hk hi hacc
    have hcol := column_eq_sum (n := n) (x := quotient c) (y := digit W m) (fun _ h => quotient_eq_zero (hlen.trans_le h)) (fun _ => digit_eq_zero hm) i
    rw [min_eq_right (by omega), show n - (i + 1 - n) = 2 * n - 1 - i by omega] at hcol
    have hle := sum_products_le (B := 2 ^ W) (l := List.range' (i + 1 - n) (2 * n - 1 - i))
      (f := fun j => quotient c j * digit W m (i - j)) (n := n) (by rw [List.length_range']; omega)
      fun j _ => quotient_mul_le hdig j (i - j)
    obtain ⟨hlt, hdiv⟩ := acc_bound hW hn hacc hle (digit_le W a i)
    rw [hcube] at hlt
    rw [rdcnResult]
    rw [rdcnColumn_eq (by omega), accAdd_of_lt hlt, ih _ _ (by omega) (by omega) hdiv, ← hcol, Finset.sum_range_succ',
      Nat.add_zero i, pow_zero, Nat.mul_one, Nat.mul_add, Nat.mul_add, Finset.mul_sum]
    have hsum : ∑ t ∈ Finset.range k, 2 ^ W * ((column (quotient c) (digit W m) (i + 1 + t) + digit W a (i + 1 + t)) *
        (2 ^ W) ^ t) = ∑ t ∈ Finset.range k, (column (quotient c) (digit W m) (i + (t + 1)) + digit W a (i + (t + 1))) *
          (2 ^ W) ^ (t + 1) := by
      refine Finset.sum_congr rfl fun t _ => ?_
      rw [show i + (t + 1) = i + 1 + t by omega, pow_succ]
      ring
    rw [hsum, pow_succ']
    have := Nat.mod_add_div (acc + column (quotient c) (digit W m) i + digit W a i) (2 ^ W)
    linarith

theorem sum_lt_pow {B : Nat} (hB : 0 < B) {x : Nat → Nat} (hx : ∀ j, x j < B) (n : Nat) :
    ∑ i ∈ Finset.range n, x i * B ^ i < B ^ n := by
  induction n with
  | zero => simp
  | succ n ih =>
    have hle : x n * B ^ n ≤ (B - 1) * B ^ n := Nat.mul_le_mul_right _ (Nat.le_sub_one_of_lt (hx n))
    have hsplit : B ^ (n + 1) = (B - 1) * B ^ n + B ^ n := by
      rw [← Nat.succ_mul, Nat.succ_eq_add_one, Nat.sub_add_cancel hB, pow_succ']
    rw [Finset.sum_range_succ, hsplit]
    omega

/-- The value before the last subtraction: (a + q·m)/R, where q is the value of the quotient digits. -/
theorem rdcn_value (hn : 0 < n) (hW : n + 1 < 2 ^ W) (hm : m < 2 ^ (W * n)) (hu : (m * u + 1) % 2 ^ W = 0)
    (ha : a < 2 ^ (W * (2 * n))) : ∃ q < 2 ^ (W * n),
      rdcnResult W n m a (rdcnQuotients W m u a n 0 [] 0).1 (n - 1) n (rdcnQuotients W m u a n 0 [] 0).2 * 2 ^ (W * n) =
        a + q * m := by
  obtain ⟨hlen, hdig, hbound, hsum⟩ := rdcnQuotients_spec (n := n) hW hu n 0 [] 0 (Nat.zero_add n)
    ⟨rfl, fun _ h => absurd h List.not_mem_nil, Nat.zero_le _, by simp⟩
  generalize (rdcnQuotients W m u a n 0 [] 0).1 = c at *
  generalize (rdcnQuotients W m u a n 0 [] 0).2 = acc at *
  have hx : ∀ j, n ≤ j → quotient c j = 0 := fun _ h => quotient_eq_zero (hlen.trans_le h)
  have hcols := sum_column hn (y := digit W m) hx (fun _ => digit_eq_zero hm) (2 ^ W)
  rw [sum_digit hm] at hcols
  have hpow (t : Nat) : (2 ^ W) ^ t * (2 ^ W) ^ n = (2 ^ W) ^ (n + t) := by rw [← pow_add, Nat.add_comm]
  have hshift : (∑ t ∈ Finset.range (n - 1), (column (quotient c) (digit W m) (n + t) + digit W a (n + t)) * (2 ^ W) ^ t) *
      (2 ^ W) ^ n =
        ∑ t ∈ Finset.range (n - 1), (column (quotient c) (digit W m) (n + t) + digit W a (n + t)) * (2 ^ W) ^ (n + t) := by
    rw [Finset.sum_mul]
    exact Finset.sum_congr rfl fun t _ => by rw [Nat.mul_assoc, hpow]
  have hall : ∑ t ∈ Finset.range (2 * n - 1), (column (quotient c) (digit W m) t + digit W a t) * (2 ^ W) ^ t =
      acc * (2 ^ W) ^ n +
        ∑ t ∈ Finset.range (n - 1), (column (quotient c) (digit W m) (n + t) + digit W a (n + t)) * (2 ^ W) ^ (n + t) := by
    rw [hsum, ← Finset.sum_range_add, show n + (n - 1) = 2 * n - 1 by omega]
  have hdigits : ∑ t ∈ Finset.range (2 * n - 1), digit W a t * (2 ^ W) ^ t +
      digit W a (2 * n - 1) * (2 ^ W) ^ (2 * n - 1) = a := by
    rw [← Finset.sum_range_succ, show 2 * n - 1 + 1 = 2 * n by omega, sum_digit ha]
  refine ⟨∑ i ∈ Finset.range n, quotient c i * (2 ^ W) ^ i, ?_, ?_⟩
  · rw [pow_mul]
    exact sum_lt_pow (by positivity) (fun j => Nat.lt_of_le_sub_one (by positivity)
      (quotient_le hdig j)) n
  · rw [rdcnResult_eq hn hW hm hlen hdig _ _ _ (by omega) (Nat.le_refl n) hbound, pow_mul, Nat.add_mul, Nat.add_mul, hshift,
      ← hall, Nat.mul_assoc, hpow, show n + (n - 1) = 2 * n - 1 by omega, ← hcols]
    simp only [Nat.add_mul, Finset.sum_add_distrib]
    omega

end rdcn

/-- Settles O35. -/
theorem montgomeryReduction : Obligations.MontgomeryReduction := by
  unfold Obligations.MontgomeryReduction
  intro W n m u a hW hn hm hodd hu ha
  have hpos : 0 < n := by
    rcases Nat.eq_zero_or_pos n with rfl | h
    · rw [Nat.mul_zero, pow_zero] at hm
      omega
    · exact h
  have hbig : a < 2 ^ (W * (2 * n)) := by
    calc a < 2 ^ (W * n) * m := ha
      _ ≤ 2 ^ (W * n) * 2 ^ (W * n) := Nat.mul_le_mul_left _ hm.le
      _ = 2 ^ (W * (2 * n)) := by rw [← pow_add]; congr 1; ring
  obtain ⟨q, hq, hval⟩ := rdcn_value hpos hn hm hu hbig
  unfold rdcn
  dsimp only
  generalize rdcnResult W n m a (rdcnQuotients W m u a n 0 [] 0).1 (n - 1) n (rdcnQuotients W m u a n 0 [] 0).2 = t at *
  unfold digits
  generalize 2 ^ (W * n) = R at *
  have hm0 : 0 < m := by omega
  have hR : 0 < R := by omega
  have hlt : t < 2 * m := by
    refine Nat.lt_of_mul_lt_mul_right (a := R) ?_
    have hqm : q * m ≤ R * m := Nat.mul_le_mul_right _ hq.le
    rw [hval, Nat.mul_assoc, Nat.two_mul, Nat.mul_comm m R]
    omega
  have htR : t % R + t / R * R = t := Nat.mod_add_div' t R
  have hmod : t * R % m = a % m := by rw [hval, Nat.add_mul_mod_self_right]
  rw [htR]
  by_cases htm : m ≤ t
  · have hcond : t / R ≥ 1 ∨ t % R ≥ m := by
      rcases Nat.lt_or_ge t R with h | h
      · exact .inr (by rwa [Nat.mod_eq_of_lt h])
      · exact .inl (Nat.div_pos h hR)
    rw [if_pos hcond, Nat.mod_eq_of_lt (by omega)]
    refine ⟨by omega, ?_⟩
    rw [← hmod, Nat.sub_mul, ← Nat.add_mul_mod_self_left ((t * R) - m * R) m R,
      Nat.sub_add_cancel (Nat.mul_le_mul_right R htm)]
  · have hcond : ¬(t / R ≥ 1 ∨ t % R ≥ m) := by
      rw [Nat.div_eq_of_lt (by omega), Nat.mod_eq_of_lt (by omega)]
      omega
    rw [if_neg hcond, Nat.mod_eq_of_lt (by omega)]
    exact ⟨by omega, hmod⟩

end Sys2Proof.Proofs.Datapath
end

section
/-! PROOFS. Residues and register digits of the prime field (00_scope R25, 43_fp R160 to R187): what each function
of the datapath returns in a locked context, prime or composite. -/

set_option Elab.async false

namespace Sys2Proof.Proofs.Residues

open Sys2Proof.Machine Sys2Proof.Proofs.Context Sys2Proof.Proofs.Recoding Sys2Proof.Proofs.Datapath

/-! A locked prime context. -/

theorem le_mul_ceil {w : Nat} (hw : 0 < w) (k : Nat) : k ≤ w * ((k + w - 1) / w) := by
  have := Nat.div_add_mod (k + w - 1) w
  have := Nat.mod_lt (k + w - 1) hw
  omega

section context

variable {s : State} (h : FpGood s)
include h

theorem staged_of_good : FpStaged s.build s.ctx := ((h.sound h.init).1 h.unit).1

theorem derived_of_good : FpDerived s.build s.ctx := ((h.sound h.init).1 h.unit).2.1

theorem sparse_of_good (hb : s.build.fpRdc = .sparse) : s.ctx.sfCnt ≠ 0 := ((h.sound h.init).1 h.unit).2.2 hb

theorem ready_of_good : fpReady s = true := Bool.and_eq_true_iff.mpr ⟨h.unit, h.init⟩

theorem odd_of_good : s.ctx.fpP % 2 = 1 := (staged_of_good h).odd

theorem fpP_lt_bigR : s.ctx.fpP < bigR s.build := by
  have hlen : bitlen s.ctx.fpP ≤ s.build.W * s.build.fpDigs :=
    (staged_of_good h).len.trans_le (le_mul_ceil (buildOk_of_wf h.wf).width_pos _)
  exact bitlen_le_iff.mp hlen

theorem three_le_fpP : 3 ≤ s.ctx.fpP := by
  have hbits : 2 ≤ s.build.fpBits := by
    have hunit : 0 < s.build.fpBits := of_decide_eq_true h.unit
    have := (buildOk_of_wf h.wf).bits
    omega
  by_contra hlt
  have hlen : bitlen s.ctx.fpP ≤ 1 := bitlen_le_iff.mpr (by have := odd_of_good h; omega)
  have := (staged_of_good h).len
  omega

theorem fpP_pos : 0 < s.ctx.fpP := by
  have := three_le_fpP h
  omega

theorem fpDigs_pos : 0 < s.build.fpDigs := by
  rcases Nat.eq_zero_or_pos s.build.fpDigs with h0 | h0
  · have := fpP_lt_bigR h
    have := three_le_fpP h
    rw [bigR, h0, Nat.mul_zero, pow_zero] at *
    omega
  · exact h0

theorem digits_fp {v : Nat} (hv : v < s.ctx.fpP) : digits s.build.W s.build.fpDigs v = v :=
  digits_of_lt (hv.trans (fpP_lt_bigR h))

/-! The datapath with the context's parameters. -/

theorem comba_of_lt {a b : Nat} (ha : a < s.ctx.fpP) (hb : b < s.ctx.fpP) : s.comba a b = a * b :=
  combaIsExact _ _ _ _ (buildOk_of_wf h.wf).width_pos (buildOk_of_wf h.wf).acc (ha.trans (fpP_lt_bigR h))
    (hb.trans (fpP_lt_bigR h))

theorem rdcn_spec {a : Nat} (ha : a < bigR s.build * s.ctx.fpP) :
    s.rdcn a < s.ctx.fpP ∧ s.rdcn a * bigR s.build % s.ctx.fpP = a % s.ctx.fpP :=
  montgomeryReduction _ _ _ _ _ (buildOk_of_wf h.wf).width_pos (buildOk_of_wf h.wf).acc (fpP_lt_bigR h) (odd_of_good h)
    (derived_of_good h).u ha

theorem mul_lt_range {a b : Nat} (ha : a < s.ctx.fpP) (hb : b < s.ctx.fpP) : a * b < bigR s.build * s.ctx.fpP :=
  Nat.mul_lt_mul'' (ha.trans (fpP_lt_bigR h)) hb

end context

/-- Each round of sparse reduction takes a multiple of p away (43_fp R164). -/
theorem rdcsLoop_emod {top : Nat} {tail p : Int} (hp : (2 : Int) ^ top + tail = p) (fuel : Nat) : ∀ r : Int,
    rdcsLoop top tail fuel r % p = r % p := by
  induction fuel with
  | zero => exact fun _ => rfl
  | succ fuel ih =>
    intro r
    rw [rdcsLoop]
    split
    · rfl
    · rw [ih, show r - r.tdiv (2 ^ top) * 2 ^ top - r.tdiv (2 ^ top) * tail = r + -(r.tdiv (2 ^ top)) * p by
        rw [← hp]; ring, Int.add_mul_emod_self_right]

theorem rdcs_eq {s : State} (hs : FpStaged s.build s.ctx) (hcnt : s.ctx.sfCnt ≠ 0) (a : Nat) :
    s.rdcs a = a % s.ctx.fpP := by
  rw [State.rdcs, rdcs, rdcsLoop_emod (hs.sum hcnt)]
  rfl

/-! Residues and their register values. -/

section residues

variable {b : Build} {p : Nat}

/-- R and the power of (p + 1)/2 are inverse to each other for odd p. -/
theorem bigR_mul_rInv (hp : p % 2 = 1) : bigR b * rInv b p ≡ 1 [MOD p] := by
  have hinv : rInv b p ≡ ((p + 1) / 2) ^ (b.W * b.fpDigs) [MOD p] := by
    rw [rInv, powMod_eq (by omega)]
    exact Nat.mod_modEq _ _
  have htwo : 2 * ((p + 1) / 2) ≡ 1 [MOD p] := by
    rw [show 2 * ((p + 1) / 2) = 1 + p by omega]
    exact Nat.add_modEq_right
  calc bigR b * rInv b p ≡ 2 ^ (b.W * b.fpDigs) * ((p + 1) / 2) ^ (b.W * b.fpDigs) [MOD p] := hinv.mul_left _
    _ ≡ 1 [MOD p] := by
        rw [← Nat.mul_pow]
        exact (htwo.pow _).trans (by rw [one_pow])

theorem valFp_lt (hp : 0 < p) {e : Nat} (he : e < p) : valFp b p e < p := by
  unfold valFp
  split
  · exact Nat.mod_lt _ hp
  · exact he

theorem repFp_lt (hp : 0 < p) {v : Nat} (hv : v < p) : repFp b p v < p := by
  unfold repFp
  split
  · exact Nat.mod_lt _ hp
  · exact hv

theorem valFp_repFp (hp : p % 2 = 1) {v : Nat} (hv : v < p) : valFp b p (repFp b p v) = v := by
  unfold valFp repFp
  cases b.fpRdc with
  | sparse => rfl
  | monty =>
    refine Nat.ModEq.eq_of_lt_of_lt ?_ (Nat.mod_lt _ (by omega)) hv
    calc v * bigR b % p * rInv b p % p ≡ v * bigR b * rInv b p [MOD p] :=
          (Nat.mod_modEq _ _).trans ((Nat.mod_modEq _ _).mul_right _)
      _ ≡ v * 1 [MOD p] := by
          rw [Nat.mul_assoc]
          exact (bigR_mul_rInv hp).mul_left v
      _ = v := Nat.mul_one v

theorem repFp_valFp (hp : p % 2 = 1) {e : Nat} (he : e < p) : repFp b p (valFp b p e) = e := by
  unfold valFp repFp
  cases b.fpRdc with
  | sparse => rfl
  | monty =>
    refine Nat.ModEq.eq_of_lt_of_lt ?_ (Nat.mod_lt _ (by omega)) he
    calc e * rInv b p % p * bigR b % p ≡ e * rInv b p * bigR b [MOD p] :=
          (Nat.mod_modEq _ _).trans ((Nat.mod_modEq _ _).mul_right _)
      _ ≡ e * 1 [MOD p] := by
          rw [Nat.mul_assoc, Nat.mul_comm (rInv b p)]
          exact (bigR_mul_rInv hp).mul_left e
      _ = e := Nat.mul_one e

theorem valFp_eq_zero (hp : p % 2 = 1) {e : Nat} (he : e < p) : valFp b p e = 0 ↔ e = 0 := by
  constructor
  · intro h
    have := repFp_valFp (b := b) hp he
    rw [h] at this
    rw [← this]
    unfold repFp
    split <;> simp
  · rintro rfl
    unfold valFp
    split <;> simp

end residues

/-- The residue of a product of digit vectors (43_fp R170), with the digits of both back-ends. -/
theorem mulFp_spec {s : State} (h : FpGood s) {x y : Nat} (hx : x < s.ctx.fpP) (hy : y < s.ctx.fpP) :
    s.mulFp x y < s.ctx.fpP ∧
      (s.build.fpRdc = .monty → s.mulFp x y * bigR s.build % s.ctx.fpP = x * y % s.ctx.fpP) ∧
      (s.build.fpRdc = .sparse → s.mulFp x y = x * y % s.ctx.fpP) := by
  rw [State.mulFp, comba_of_lt h hx hy, State.rdc]
  cases hb : s.build.fpRdc with
  | monty =>
    obtain ⟨hlt, hmod⟩ := rdcn_spec h (mul_lt_range h hx hy)
    exact ⟨hlt, fun _ => hmod, by simp⟩
  | sparse =>
    dsimp only
    rw [rdcs_eq (staged_of_good h) (sparse_of_good h hb)]
    exact ⟨Nat.mod_lt _ (fpP_pos h), by simp, fun _ => rfl⟩

theorem valFp_mulFp {s : State} (h : FpGood s) {x y : Nat} (hx : x < s.ctx.fpP) (hy : y < s.ctx.fpP) :
    s.valFp (s.mulFp x y) = s.valFp x * s.valFp y % s.ctx.fpP := by
  obtain ⟨hlt, hmonty, hsparse⟩ := mulFp_spec h hx hy
  unfold State.valFp valFp
  cases hb : s.build.fpRdc with
  | sparse => exact hsparse hb
  | monty =>
    have hinv := bigR_mul_rInv (b := s.build) (odd_of_good h)
    dsimp only
    rw [← Nat.mul_mod]
    show s.mulFp x y * rInv s.build s.ctx.fpP ≡ x * rInv s.build s.ctx.fpP * (y * rInv s.build s.ctx.fpP) [MOD s.ctx.fpP]
    have hm : s.mulFp x y * bigR s.build ≡ x * y [MOD s.ctx.fpP] := hmonty hb
    calc s.mulFp x y * rInv s.build s.ctx.fpP ≡
          s.mulFp x y * (bigR s.build * rInv s.build s.ctx.fpP) * rInv s.build s.ctx.fpP [MOD s.ctx.fpP] := by
            have := ((hinv.mul_left (s.mulFp x y)).mul_right (rInv s.build s.ctx.fpP)).symm
            rwa [Nat.mul_one] at this
      _ = s.mulFp x y * bigR s.build * (rInv s.build s.ctx.fpP * rInv s.build s.ctx.fpP) := by ring
      _ ≡ x * y * (rInv s.build s.ctx.fpP * rInv s.build s.ctx.fpP) [MOD s.ctx.fpP] := hm.mul_right _
      _ = x * rInv s.build s.ctx.fpP * (y * rInv s.build s.ctx.fpP) := by ring

end Sys2Proof.Proofs.Residues
end

section
/-! PROOFS. The prime-field commands (43_fp R165 to R187): each writes one register, with a canonical value that
for prime p is the one of its rule. -/

set_option Elab.async false

namespace Sys2Proof.Proofs.PrimeFieldCommands

open Sys2Proof.Machine Sys2Proof.Laws Sys2Proof.Proofs.Context Sys2Proof.Proofs.Recoding Sys2Proof.Proofs.Datapath
  Sys2Proof.Proofs.Residues Sys2Proof.Proofs.Frames Sys2Proof.Proofs.Faults Sys2Proof.Proofs.Step
  Sys2Proof.Proofs.Integers

/-! One register is written. -/

theorem fpChecks_pass {s : State} (h : FpGood s) {vs : List Nat} (hvs : ∀ v ∈ vs, v < s.ctx.fpP) :
    firstFault (fpChecks s vs) = none := by
  rw [firstFault_eq_none, fpChecks, List.forall_mem_cons, List.forall_mem_map]
  exact ⟨ready_of_good h, fun v hv => decide_eq_true (hvs v hv)⟩

/-- What a command that writes one field element leaves: the value that its rule gives for prime p, in any case a
canonical one (93 U10, log 10). -/
theorem fp_writes {s : State} (h : FpGood s) {op : Nat} {cs : List Check} {w : State → State} {rd : Reg}
    {v : Option Nat} (hpass : firstFault cs = none) (hw : w s = s.putFpOr rd v)
    (hv : ∀ x, v = some x → x < s.ctx.fpP) :
    ∃ t, command op cs w s = .next t ∧ t.fp[rd] < s.ctx.fpP ∧ OnlyFp s t rd ∧
      (Nat.Prime s.ctx.fpP → ∀ x, v = some x → t.fp[rd] = x) := by
  refine ⟨finish (s.putFpOr rd v), ?_, ?_, onlyFp_putFpOr s rd v, fun hp x hx => ?_⟩
  · rw [command_completes hpass, hw]
  · rw [finish_fp]
    obtain ⟨x, hx, -, he⟩ | he := putFpOr_cases s rd v
    · rw [he, putFp_same, digits_fp h (hv x hx)]
      exact hv x hx
    · have hfree : s.draw 0 % s.ctx.fpP < s.ctx.fpP := Nat.mod_lt _ (fpP_pos h)
      rw [he, drawn_fp, putFp_same, digits_fp h hfree]
      exact hfree
  · rw [finish_fp, hx, putFpOr_some (fpTrue_of_prime hp), putFp_same, digits_fp h (hv x hx)]

/-- The same for a value that the datapath always gives. -/
theorem fp_writes_some {s : State} (h : FpGood s) {op : Nat} {cs : List Check} {w : State → State} {rd : Reg}
    {x : Nat} (hpass : firstFault cs = none) (hw : w s = s.putFpOr rd (some x)) (hx : x < s.ctx.fpP) :
    ∃ t, command op cs w s = .next t ∧ t.fp[rd] < s.ctx.fpP ∧ OnlyFp s t rd ∧
      (Nat.Prime s.ctx.fpP → t.fp[rd] = x) := by
  obtain ⟨t, ht, hlt, honly, hval⟩ := fp_writes h hpass hw fun y hy => Option.some.inj hy ▸ hx
  exact ⟨t, ht, hlt, honly, fun hp => hval hp x rfl⟩

/-- A context that is good stays so through a command. -/
theorem fpGood_exec {s t : State} {i : Instr} (h : FpGood s) (he : exec i s = .next t) (hctx : t.ctx = s.ctx)
    (hinit : t.status.init = s.status.init) : FpGood t where
  wf := (build_exec he).symm ▸ h.wf
  fits := fits_exec h.fits he
  sound := ctxSound_of_eq h.sound hinit hctx (build_exec he)
  unit := (build_exec he).symm ▸ h.unit
  init := hinit.trans h.init

/-! The linear commands (43_fp R165 to R169). -/

section linear

variable {p a b : Nat}

theorem addMod_eq (ha : a < p) (hb : b < p) : addMod p a b = (a + b) % p := by
  unfold addMod
  split
  · rename_i h
    rw [Nat.mod_eq_sub_mod h, Nat.mod_eq_of_lt (by omega)]
  · rw [Nat.mod_eq_of_lt (by omega)]

theorem subMod_eq (ha : a < p) (hb : b < p) : subMod p a b = (a + (p - b)) % p := by
  unfold subMod
  split
  · rw [Nat.mod_eq_of_lt (by omega)]
    omega
  · rw [Nat.mod_eq_sub_mod (by omega), Nat.mod_eq_of_lt (by omega)]
    omega

theorem negMod_eq (ha : a < p) : negMod p a = (p - a) % p := by
  unfold negMod
  split
  · rename_i h
    rw [h, Nat.sub_zero, Nat.mod_self]
  · rw [Nat.mod_eq_of_lt (by omega)]

theorem addMod_lt (ha : a < p) (hb : b < p) : addMod p a b < p := addMod_eq ha hb ▸ Nat.mod_lt _ (by omega)

theorem subMod_lt (ha : a < p) (hb : b < p) : subMod p a b < p := subMod_eq ha hb ▸ Nat.mod_lt _ (by omega)

theorem negMod_lt (ha : a < p) : negMod p a < p := negMod_eq ha ▸ Nat.mod_lt _ (by omega)

theorem halveMod_spec (hp : p % 2 = 1) (ha : a < p) : halveMod p a < p ∧ 2 * halveMod p a % p = a := by
  unfold halveMod
  split
  · rw [show 2 * (a / 2) = a by omega]
    exact ⟨by omega, Nat.mod_eq_of_lt ha⟩
  · rw [show 2 * ((a + p) / 2) = a + p by omega, Nat.add_mod_right]
    exact ⟨by omega, Nat.mod_eq_of_lt ha⟩

end linear

/-- Settles O36. -/
theorem fpLinear : Obligations.FpLinear := by
  unfold Obligations.FpLinear
  intro s rd ra rb h ha hb
  have hone : firstFault (fpChecks s [s.fp[ra]]) = none := fpChecks_pass h (List.forall_mem_singleton.mpr ha)
  have htwo : firstFault (fpChecks s [s.fp[ra], s.fp[rb]]) = none :=
    fpChecks_pass h (List.forall_mem_cons.mpr ⟨ha, List.forall_mem_singleton.mpr hb⟩)
  obtain ⟨hhalf, hval⟩ := halveMod_spec (odd_of_good h) ha
  rw [← addMod_eq ha hb, ← subMod_eq ha hb, ← negMod_eq ha, Nat.two_mul, ← addMod_eq ha ha]
  dsimp only [exec]
  refine ⟨fp_writes_some h htwo ?_ (addMod_lt ha hb), fp_writes_some h htwo ?_ (subMod_lt ha hb),
    fp_writes_some h hone ?_ (negMod_lt ha), fp_writes_some h hone ?_ (addMod_lt ha ha), ?_⟩
  iterate 4 rfl
  obtain ⟨t, ht, hlt, honly, heq⟩ := fp_writes_some (op := 0x44) (rd := rd)
    (w := fun s => s.putFpOr rd (some (halveMod s.ctx.fpP s.fp[ra]))) h hone rfl hhalf
  exact ⟨t, ht, hlt, honly, fun hp => by rw [heq hp, hval]⟩

/-! Products (43_fp R170, R171, R179). -/

theorem putDv_eq {s : State} {v : Nat} (rd : Reg) (hv : v < 2 ^ (s.build.W * s.build.dvDigs)) :
    (s.putDv rd v).dv[rd] = v := by
  rw [putDv_same, digits_of_lt hv]

theorem bigR_sq_le {s : State} (h : FpGood s) : bigR s.build ^ 2 ≤ 2 ^ (s.build.W * s.build.dvDigs) := by
  have hdv := (buildOk_of_wf h.wf).dv
  rw [bigR, ← pow_mul]
  refine Nat.pow_le_pow_right (by norm_num) ?_
  rw [Nat.mul_assoc]
  exact Nat.mul_le_mul_left _ (by omega)

/-- Settles O37. -/
theorem fpMultiplication : Obligations.FpMultiplication := by
  unfold Obligations.FpMultiplication
  intro s rd ra rb h ha hb
  have hone : firstFault (fpChecks s [s.fp[ra]]) = none := fpChecks_pass h (List.forall_mem_singleton.mpr ha)
  have htwo : firstFault (fpChecks s [s.fp[ra], s.fp[rb]]) = none :=
    fpChecks_pass h (List.forall_mem_cons.mpr ⟨ha, List.forall_mem_singleton.mpr hb⟩)
  refine ⟨fun i a b hi => ?_, ?_⟩
  · have hprod : ∃ cs w, exec i s = command (rowCode i).1 cs w s ∧ firstFault cs = none ∧
        w s = s.putFpOr rd (some (s.mulFp a b)) ∧ a < s.ctx.fpP ∧ b < s.ctx.fpP := by
      obtain hi | hi := hi
      all_goals
        simp only [Prod.mk.injEq] at hi
        obtain ⟨rfl, rfl, rfl⟩ := hi
        dsimp only [exec]
      · exact ⟨_, _, rfl, htwo, rfl, ha, hb⟩
      · exact ⟨_, _, rfl, hone, rfl, ha, ha⟩
    obtain ⟨cs, w, he, hpass, hw, ha', hb'⟩ := hprod
    obtain ⟨hlt, hmonty, hsparse⟩ := mulFp_spec h ha' hb'
    obtain ⟨t, ht, htlt, honly, hval⟩ := fp_writes_some (op := (rowCode i).1) h hpass hw hlt
    refine ⟨t, he.trans ht, htlt, honly, fun hp => ?_⟩
    rw [hval hp]
    exact ⟨valFp_mulFp h ha' hb', hmonty, hsparse⟩
  · refine ⟨finish (s.putDvOr (fpTrue s) rd (s.comba s.fp[ra] s.fp[rb])), ?_, onlyDv_putDvOr s rd _ _, fun hp => ?_⟩
    · dsimp only [exec]
      exact command_completes htwo
    · have hR := fpP_lt_bigR h
      have hlt : s.fp[ra] * s.fp[rb] < 2 ^ (s.build.W * s.build.dvDigs) := by
        refine lt_of_lt_of_le ?_ (bigR_sq_le h)
        rw [pow_two]
        exact Nat.mul_lt_mul'' (ha.trans hR) (hb.trans hR)
      rw [finish_dv, fpTrue_of_prime hp, comba_of_lt h ha hb]
      exact putDv_eq rd hlt

/-! Conversions (43_fp R176, R177, R181). -/

/-- The digits that `FP.CONV` writes. -/
def convDigits (s : State) (a : Nat) : Nat :=
  match s.build.fpRdc with
  | .monty => s.rdcn (s.comba a s.ctx.rr)
  | .sparse => a

/-- The digits that `FP.BACK` writes. -/
def backDigits (s : State) (a : Nat) : Nat :=
  match s.build.fpRdc with
  | .monty => s.rdcn a
  | .sparse => a

section conversions

variable {s : State}

theorem bigR_cancel {x y : Nat} (h : FpGood s) (hxy : x * bigR s.build ≡ y * bigR s.build [MOD s.ctx.fpP]) :
    x ≡ y [MOD s.ctx.fpP] := by
  refine Nat.ModEq.cancel_right_of_coprime ?_ hxy
  exact Nat.Coprime.pow_right _ (Nat.coprime_two_right.mpr (Nat.odd_iff.mpr (odd_of_good h)))

theorem convDigits_spec (h : FpGood s) {a : Nat} (ha : a < s.ctx.fpP) : convDigits s a < s.ctx.fpP ∧
    (s.build.fpRdc = .monty → convDigits s a = a * bigR s.build % s.ctx.fpP) ∧
    (s.build.fpRdc = .sparse → convDigits s a = a) := by
  unfold convDigits
  cases hb : s.build.fpRdc with
  | sparse => exact ⟨ha, by simp, fun _ => rfl⟩
  | monty =>
    have hrr : s.ctx.rr = bigR s.build ^ 2 % s.ctx.fpP := (derived_of_good h).rr
    have hrrlt : s.ctx.rr < s.ctx.fpP := hrr ▸ Nat.mod_lt _ (fpP_pos h)
    obtain ⟨hlt, hmod⟩ := rdcn_spec h (mul_lt_range h ha hrrlt)
    rw [← comba_of_lt h ha hrrlt] at hlt hmod
    refine ⟨hlt, fun _ => ?_, by simp⟩
    refine Nat.ModEq.eq_of_lt_of_lt ?_ hlt (Nat.mod_lt _ (fpP_pos h))
    refine Nat.ModEq.trans (bigR_cancel h ?_) (Nat.mod_modEq _ _).symm
    calc s.rdcn (s.comba a s.ctx.rr) * bigR s.build ≡ s.comba a s.ctx.rr [MOD s.ctx.fpP] := hmod
      _ = a * s.ctx.rr := comba_of_lt h ha hrrlt
      _ ≡ a * bigR s.build ^ 2 [MOD s.ctx.fpP] := by
          rw [hrr]
          exact (Nat.mod_modEq _ _).mul_left a
      _ = a * bigR s.build * bigR s.build := by ring

theorem backDigits_spec (h : FpGood s) {a : Nat} (ha : a < s.ctx.fpP) : backDigits s a < s.ctx.fpP ∧
    (s.build.fpRdc = .monty → backDigits s a * bigR s.build % s.ctx.fpP = a) ∧
    (s.build.fpRdc = .sparse → backDigits s a = a) := by
  unfold backDigits
  cases hb : s.build.fpRdc with
  | sparse => exact ⟨ha, by simp, fun _ => rfl⟩
  | monty =>
    have hR : 0 < bigR s.build := by unfold bigR; positivity
    obtain ⟨hlt, hmod⟩ := rdcn_spec h (ha.trans_le (Nat.le_mul_of_pos_left _ hR))
    exact ⟨hlt, fun _ => hmod.trans (Nat.mod_eq_of_lt ha), by simp⟩

theorem backDigits_convDigits (h : FpGood s) {a : Nat} (ha : a < s.ctx.fpP) : backDigits s (convDigits s a) = a := by
  obtain ⟨hlt, hm, hs⟩ := convDigits_spec h ha
  obtain ⟨hlt', hm', hs'⟩ := backDigits_spec h hlt
  cases hb : s.build.fpRdc with
  | sparse => rw [hs' hb, hs hb]
  | monty =>
    refine Nat.ModEq.eq_of_lt_of_lt (bigR_cancel h ?_) hlt' ha
    show _ % _ = _ % _
    rw [hm' hb, hm hb]

theorem convDigits_backDigits (h : FpGood s) {a : Nat} (ha : a < s.ctx.fpP) : convDigits s (backDigits s a) = a := by
  obtain ⟨hlt, hm, hs⟩ := backDigits_spec h ha
  obtain ⟨-, hm', hs'⟩ := convDigits_spec h hlt
  cases hb : s.build.fpRdc with
  | sparse => rw [hs' hb, hs hb]
  | monty => rw [hm' hb, hm hb]

theorem exec_fpConv (h : FpGood s) (rd : Reg) {ra : Reg} (ha : s.fp[ra] < s.ctx.fpP) :
    ∃ t, exec (.fpConv rd ra) s = .next t ∧ t.fp[rd] < s.ctx.fpP ∧ OnlyFp s t rd ∧
      (Nat.Prime s.ctx.fpP → t.fp[rd] = convDigits s s.fp[ra]) := by
  dsimp only [exec]
  refine fp_writes_some h (fpChecks_pass h (List.forall_mem_singleton.mpr ha)) ?_ (convDigits_spec h ha).1
  unfold convDigits
  cases s.build.fpRdc <;> rfl

theorem exec_fpBack (h : FpGood s) (rd : Reg) {ra : Reg} (ha : s.fp[ra] < s.ctx.fpP) :
    ∃ t, exec (.fpBack rd ra) s = .next t ∧ t.fp[rd] < s.ctx.fpP ∧ OnlyFp s t rd ∧
      (Nat.Prime s.ctx.fpP → t.fp[rd] = backDigits s s.fp[ra]) := by
  dsimp only [exec]
  refine fp_writes_some h (fpChecks_pass h (List.forall_mem_singleton.mpr ha)) ?_ (backDigits_spec h ha).1
  unfold backDigits
  cases s.build.fpRdc <;> rfl

theorem convDigits_congr {t : State} (hb : t.build = s.build) (hc : t.ctx = s.ctx) (a : Nat) :
    convDigits t a = convDigits s a := by
  simp only [convDigits, State.rdcn, State.comba, hb, hc]

theorem backDigits_congr {t : State} (hb : t.build = s.build) (hc : t.ctx = s.ctx) (a : Nat) :
    backDigits t a = backDigits s a := by
  simp only [backDigits, State.rdcn, hb, hc]

/-- The context is good after a command that writes a field element. -/
theorem fpGood_of_onlyFp {t : State} {i : Instr} {rd : Reg} (h : FpGood s) (he : exec i s = .next t)
    (ho : OnlyFp s t rd) : FpGood t :=
  fpGood_exec h he ho.1.ctx (by rw [ho.1.status])

end conversions

/-- Settles O38. -/
theorem fpConversions : Obligations.FpConversions := by
  unfold Obligations.FpConversions
  intro s rd re ra h ha
  obtain ⟨-, hcm, hcs⟩ := convDigits_spec h ha
  obtain ⟨-, hbm, hbs⟩ := backDigits_spec h ha
  constructor
  · obtain ⟨t, ht, hlt, honly, hval⟩ := exec_fpConv h rd ha
    obtain ⟨u, hu, -, honly', hval'⟩ := exec_fpBack (fpGood_of_onlyFp h ht honly) re (ra := rd) (honly.1.ctx ▸ hlt)
    rw [honly.1.ctx] at hval'
    refine ⟨t, u, ht, hu, honly, honly', hlt, fun hp => ?_⟩
    rw [hval' hp, backDigits_congr honly.1.build honly.1.ctx, hval hp]
    exact ⟨hcm, hcs, backDigits_convDigits h ha⟩
  · obtain ⟨t, ht, hlt, honly, hval⟩ := exec_fpBack h rd ha
    obtain ⟨u, hu, -, honly', hval'⟩ := exec_fpConv (fpGood_of_onlyFp h ht honly) re (ra := rd) (honly.1.ctx ▸ hlt)
    rw [honly.1.ctx] at hval'
    refine ⟨t, u, ht, hu, honly, honly', hlt, fun hp => ?_⟩
    rw [hval' hp, convDigits_congr honly.1.build honly.1.ctx, hval hp]
    exact ⟨hbm, hbs, convDigits_backDigits h ha⟩

/-! Inversion (43_fp R172). -/

theorem invMod_lt {p a x : Nat} (hp : 0 < p) (h : invMod p a = some x) : x < p := by
  unfold invMod at h
  dsimp only at h
  split at h
  · exact Option.some.inj h ▸ powMod_lt hp _ _
  · cases h

/-- Every residue but 0 has an inverse modulo a prime. -/
theorem invMod_prime {p a : Nat} (hp : Nat.Prime p) (ha : a < p) (h0 : a ≠ 0) :
    ∃ x, invMod p a = some x ∧ x < p ∧ a * x % p = 1 := by
  have hfermat : a * powMod p a (p - 2) % p = 1 % p := by
    have hcop : Nat.Coprime a p := (Nat.coprime_of_lt_prime h0 ha hp).symm
    have hpow := Nat.ModEq.pow_totient hcop
    rw [Nat.totient_prime hp] at hpow
    rw [powMod_eq hp.pos]
    calc a * (a ^ (p - 2) % p) ≡ a * a ^ (p - 2) [MOD p] := (Nat.mod_modEq _ _).mul_left a
      _ = a ^ (p - 1) := by rw [← pow_succ']; congr 1; have := hp.two_le; omega
      _ ≡ 1 [MOD p] := hpow
  refine ⟨powMod p a (p - 2), ?_, powMod_lt hp.pos _ _, ?_⟩
  · unfold invMod
    exact if_pos hfermat
  · rw [hfermat, Nat.mod_eq_of_lt hp.one_lt]

theorem invFp_lt {s : State} (h : FpGood s) {a x : Nat} (hx : s.invFp a = some x) : x < s.ctx.fpP := by
  obtain ⟨y, hy, rfl⟩ := Option.map_eq_some_iff.mp hx
  exact repFp_lt (fpP_pos h) (invMod_lt (fpP_pos h) hy)

theorem invFp_prime {s : State} (h : FpGood s) (hp : Nat.Prime s.ctx.fpP) {a : Nat} (ha : a < s.ctx.fpP) (h0 : a ≠ 0) :
    ∃ x, s.invFp a = some x ∧ x < s.ctx.fpP ∧ s.valFp a * s.valFp x % s.ctx.fpP = 1 := by
  obtain ⟨x, hx, hlt, hmul⟩ := invMod_prime hp (valFp_lt (b := s.build) hp.pos ha)
    (mt (valFp_eq_zero (odd_of_good h) ha).mp h0)
  refine ⟨s.repFp x, ?_, repFp_lt hp.pos hlt, ?_⟩
  · rw [State.invFp, State.valFp, hx]
    rfl
  · rw [State.valFp, State.valFp, State.repFp, valFp_repFp (odd_of_good h) hlt, hmul]

/-- Settles O40. -/
theorem fpInversion : Obligations.FpInversion := by
  unfold Obligations.FpInversion
  intro s rd ra h hp ha
  have hsrc : firstFault (fpChecks s [s.fp[ra]]) = none := fpChecks_pass h (List.forall_mem_singleton.mpr ha)
  refine ⟨fun h0 => ?_, fun h0 => ?_⟩
  · obtain ⟨x, hx, -, hmul⟩ := invFp_prime h hp ha h0
    have hpass : firstFault (fpChecks s [s.fp[ra]] ++ [needInput (!(s.fp[ra] == 0))]) = none := by
      rw [firstFault_append_of_pass hsrc]
      simp only [firstFault, needInput, beq_eq_false_iff_ne.mpr h0, Bool.not_false, if_true]
    obtain ⟨t, ht, hlt, honly, hval⟩ := fp_writes (op := 0x47) (rd := rd) (w := fun s => s.putFpOr rd (s.invFp s.fp[ra]))
      h hpass rfl fun y hy => invFp_lt h hy
    exact ⟨t, ht, hlt, by rw [hval hp x hx, hmul], honly⟩
  · dsimp only [exec]
    refine command_faults ?_
    rw [firstFault_append_of_pass hsrc]
    simp only [firstFault, needInput, h0, beq_self_eq_true, Bool.not_true, Bool.false_eq_true, if_false]

/-! Exponentiation (43_fp R173, R178). -/

section power

variable {s : State}

/-- The ladder keeps r0 = x^k and r1 = x^(k+1), k the bits of the exponent read so far. -/
theorem ladderFp_spec (h : FpGood s) (e x : Nat) (t : Nat) : ∀ r0 r1 : Nat, r0 < s.ctx.fpP → r1 < s.ctx.fpP →
    s.valFp r0 ≡ x ^ (e / 2 ^ t) [MOD s.ctx.fpP] → s.valFp r1 ≡ x ^ (e / 2 ^ t + 1) [MOD s.ctx.fpP] →
    s.ladderFp e t r0 r1 < s.ctx.fpP ∧ s.valFp (s.ladderFp e t r0 r1) ≡ x ^ e [MOD s.ctx.fpP] := by
  have hmul {r r' i j : Nat} (hr : r < s.ctx.fpP) (hr' : r' < s.ctx.fpP) (hi : s.valFp r ≡ x ^ i [MOD s.ctx.fpP])
      (hj : s.valFp r' ≡ x ^ j [MOD s.ctx.fpP]) : s.valFp (s.mulFp r r') ≡ x ^ (i + j) [MOD s.ctx.fpP] := by
    rw [valFp_mulFp h hr hr', pow_add]
    exact (Nat.mod_modEq _ _).trans (hi.mul hj)
  induction t with
  | zero =>
    intro r0 r1 h0 _ hv0 _
    rw [pow_zero, Nat.div_one] at hv0
    exact ⟨h0, hv0⟩
  | succ t ih =>
    intro r0 r1 h0 h1 hv0 hv1
    have hhalf : e / 2 ^ (t + 1) = e / 2 ^ t / 2 := by rw [pow_succ, Nat.div_div_eq_div_mul]
    rw [hhalf] at hv0 hv1
    rw [State.ladderFp]
    split
    · rename_i hbit
      refine ih _ _ (mulFp_spec h h0 h0).1 (mulFp_spec h h0 h1).1 ?_ ?_
      · convert hmul h0 h0 hv0 hv0 using 2
        omega
      · convert hmul h0 h1 hv0 hv1 using 2
        omega
    · rename_i hbit
      refine ih _ _ (mulFp_spec h h0 h1).1 (mulFp_spec h h1 h1).1 ?_ ?_
      · convert hmul h0 h1 hv0 hv1 using 2
        omega
      · convert hmul h1 h1 hv1 hv1 using 2
        omega

theorem powFp_spec (h : FpGood s) (v : FpExp) (e : Nat) {a : Nat} (ha : a < s.ctx.fpP) :
    s.powFp v e a < s.ctx.fpP ∧ s.valFp (s.powFp v e a) = s.valFp a ^ e % s.ctx.fpP := by
  have hp := fpP_pos h
  cases v with
  | basic =>
    have hlt := powMod_lt hp (s.valFp a) e
    refine ⟨repFp_lt hp hlt, ?_⟩
    rw [State.powFp, State.valFp, State.repFp, valFp_repFp (odd_of_good h) hlt, powMod_eq hp]
  | monty =>
    have hone : 1 % s.ctx.fpP < s.ctx.fpP := Nat.mod_lt _ hp
    have hzero : e / 2 ^ bitlen e = 0 := Nat.div_eq_of_lt (lt_two_pow_bitlen e)
    obtain ⟨hlt, hval⟩ := ladderFp_spec h e (s.valFp a) (bitlen e) (s.repFp (1 % s.ctx.fpP)) a (repFp_lt hp hone) ha
      (by rw [hzero, pow_zero, State.valFp, State.repFp, valFp_repFp (odd_of_good h) hone]; exact Nat.mod_modEq _ _)
      (by rw [hzero, Nat.zero_add, pow_one])
    refine ⟨hlt, ?_⟩
    exact (Nat.mod_eq_of_lt (valFp_lt (b := s.build) hp hlt)).symm.trans hval

theorem expBase_lt (h : FpGood s) {a x : Nat} {e : Int} (ha : a < s.ctx.fpP) (hx : s.expBase a e = some x) :
    x < s.ctx.fpP := by
  unfold State.expBase at hx
  split at hx
  · exact invFp_lt h hx
  · exact Option.some.inj hx ▸ ha

/-- The two exponentiations are one command, with its method. -/
theorem exec_exponentiation {rd ra rb : Reg} {i : Instr}
    (hi : i = .fpExp rd ra rb ∨ i = .fpExpMonty rd ra rb ∧ s.build.expMonty = true) :
    ∃ (own : Bool) (v : FpExp) (w : State → State), own = true ∧
      exec i s = command 0x48 (expChecks s own s.fp[ra] s.n[rb]) w s ∧
      w s = s.putFpOr rd ((s.expBase s.fp[ra] s.n[rb].val).map (s.powFp v s.n[rb].mag)) := by
  obtain rfl | ⟨rfl, hown⟩ := hi
  · dsimp only [exec]
    exact ⟨true, s.build.fpExp, _, rfl, rfl, rfl⟩
  · dsimp only [exec]
    exact ⟨s.build.expMonty, .monty, _, hown, rfl, rfl⟩

theorem expChecks_pass (h : FpGood s) {a : Nat} {e : BigReg} (ha : a < s.ctx.fpP) (he : e ≠ ⟨true, 0⟩)
    (h0 : e.val < 0 → a ≠ 0) : firstFault (expChecks s true a e) = none := by
  have hlast : (!(decide (e.val < 0) && a == 0)) = true := by
    by_cases hneg : e.val < 0
    · rw [beq_eq_false_iff_ne.mpr (h0 hneg), Bool.and_false]
      rfl
    · rw [decide_eq_false hneg]
      rfl
  simp only [expChecks, firstFault, needConfig, needInput, ready_of_good h, fpCanon, decide_eq_true ha,
    (canon_iff e).mpr he, hlast, if_true]

end power

/-- Settles O41. -/
theorem fpExponentiation : Obligations.FpExponentiation := by
  unfold Obligations.FpExponentiation
  intro s rd ra rb i h ha hcanon hi
  obtain ⟨own, v, w, rfl, he, hw⟩ := exec_exponentiation hi
  rw [he]
  have hv (x : Nat) (hx : (s.expBase s.fp[ra] s.n[rb].val).map (s.powFp v s.n[rb].mag) = some x) : x < s.ctx.fpP := by
    obtain ⟨y, hy, rfl⟩ := Option.map_eq_some_iff.mp hx
    exact (powFp_spec h v _ (expBase_lt h ha hy)).1
  refine ⟨fun hpos => ?_, fun hneg h0 => ?_, fun hneg h0 => ?_⟩
  · obtain ⟨t, ht, hlt, honly, hval⟩ := fp_writes (op := 0x48) h
      (expChecks_pass h ha hcanon fun hneg => absurd hneg hpos.not_gt) hw hv
    refine ⟨t, ht, hlt, honly, fun hp => ?_⟩
    rw [hval hp _ (by rw [State.expBase, if_neg hpos.not_gt]; rfl)]
    exact (powFp_spec h v _ ha).2
  · obtain ⟨t, ht, hlt, honly, hval⟩ := fp_writes (op := 0x48) h (expChecks_pass h ha hcanon fun _ => h0) hw hv
    refine ⟨t, ht, hlt, honly, fun hp => ?_⟩
    obtain ⟨x, hx, hxlt, hmul⟩ := invFp_prime h hp ha h0
    rw [hval hp _ (by rw [State.expBase, if_pos hneg, hx]; rfl), (powFp_spec h v _ hxlt).2]
    have hone : s.valFp s.fp[ra] * s.valFp x ≡ 1 [MOD s.ctx.fpP] := by
      show _ % _ = _ % _
      rw [hmul, Nat.mod_eq_of_lt hp.one_lt]
    have hpow : s.valFp x ^ s.n[rb].mag % s.ctx.fpP * s.valFp s.fp[ra] ^ s.n[rb].mag ≡ 1 [MOD s.ctx.fpP] := by
      calc s.valFp x ^ s.n[rb].mag % s.ctx.fpP * s.valFp s.fp[ra] ^ s.n[rb].mag ≡
            s.valFp x ^ s.n[rb].mag * s.valFp s.fp[ra] ^ s.n[rb].mag [MOD s.ctx.fpP] := (Nat.mod_modEq _ _).mul_right _
        _ = (s.valFp s.fp[ra] * s.valFp x) ^ s.n[rb].mag := by rw [Nat.mul_pow, Nat.mul_comm]
        _ ≡ 1 ^ s.n[rb].mag [MOD s.ctx.fpP] := hone.pow _
        _ = 1 := one_pow _
    exact Eq.trans hpow (Nat.mod_eq_of_lt hp.one_lt)
  · refine command_faults ?_
    have hlast : (!(decide (s.n[rb].val < 0) && s.fp[ra] == 0)) = false := by
      rw [h0, decide_eq_true hneg]
      rfl
    simp only [expChecks, firstFault, needConfig, needInput, ready_of_good h, fpCanon, decide_eq_true ha,
      (canon_iff _).mpr hcanon, hlast, if_true, Bool.false_eq_true, if_false]

/-! Reduction (43_fp R185 to R187). -/

section reduction

variable {s : State} {a : Nat}

theorem highDigitsZero_iff {W n a : Nat} : highDigitsZero W n a = true ↔ a < 2 ^ (W * (2 * n)) := by
  rw [highDigitsZero, beq_iff_eq, Nat.div_eq_zero_iff]
  simp

theorem bigR_sq (b : Build) : bigR b ^ 2 = 2 ^ (b.W * (2 * b.fpDigs)) := by
  rw [bigR, ← pow_mul]
  congr 1
  ring

theorem div_bigR_lt_iff {b : Build} {p : Nat} : a / bigR b < p ↔ a < bigR b * p := by
  rw [Nat.div_lt_iff_lt_mul (by unfold bigR; positivity), Nat.mul_comm]

theorem rdcnChecks_pass (h : FpGood s) (ha : a < bigR s.build * s.ctx.fpP) :
    firstFault (rdcnChecks s true a) = none := by
  have hhigh : highDigitsZero s.build.W s.build.fpDigs a = true := by
    rw [highDigitsZero_iff, ← bigR_sq, pow_two]
    exact ha.trans_le (Nat.mul_le_mul_left _ (fpP_lt_bigR h).le)
  simp only [rdcnChecks, firstFault, needConfig, needInput, ready_of_good h, hhigh,
    decide_eq_true (div_bigR_lt_iff.mpr ha), if_true]

theorem rdcnChecks_fail (h : FpGood s) (ha : bigR s.build * s.ctx.fpP ≤ a) :
    firstFault (rdcnChecks s true a) = some .invalidInput := by
  have hlast : decide (a / bigR s.build < s.ctx.fpP) = false :=
    decide_eq_false fun hlt => absurd (div_bigR_lt_iff.mp hlt) ha.not_gt
  simp only [rdcnChecks, firstFault, needConfig, needInput, ready_of_good h, hlast, if_true, Bool.false_eq_true, if_false,
    ite_self]

theorem rdcsChecks_config (h : FpGood s) (h0 : s.ctx.sfCnt = 0) :
    firstFault (rdcsChecks s true a) = some .noValidConfig := by
  simp only [rdcsChecks, firstFault, needConfig, ready_of_good h, h0, beq_self_eq_true, Bool.not_true, if_true,
    Bool.false_eq_true, if_false]

theorem rdcsChecks_pass (h : FpGood s) (h0 : s.ctx.sfCnt ≠ 0) (ha : a < bigR s.build ^ 2) :
    firstFault (rdcsChecks s true a) = none := by
  rw [bigR_sq] at ha
  simp only [rdcsChecks, firstFault, needConfig, needInput, ready_of_good h, beq_eq_false_iff_ne.mpr h0,
    highDigitsZero_iff.mpr ha, Bool.not_false, if_true]

theorem rdcsChecks_fail (h : FpGood s) (h0 : s.ctx.sfCnt ≠ 0) (ha : bigR s.build ^ 2 ≤ a) :
    firstFault (rdcsChecks s true a) = some .invalidInput := by
  rw [bigR_sq] at ha
  have hhigh : highDigitsZero s.build.W s.build.fpDigs a = false := by
    rw [← Bool.not_eq_true, highDigitsZero_iff]
    exact ha.not_gt
  simp only [rdcsChecks, firstFault, needConfig, needInput, ready_of_good h, beq_eq_false_iff_ne.mpr h0, hhigh,
    Bool.not_false, if_true, Bool.false_eq_true, if_false]

/-- `FP.RDCN`, and `FP.RDC` in a Montgomery build, are one command. -/
theorem exec_rdcn {rd ra : Reg} {i : Instr}
    (hi : i = .fpRdcn rd ra ∧ .monty ∈ s.build.rdcSet ∨ i = .fpRdc rd ra ∧ s.build.fpRdc = .monty) :
    ∃ w, exec i s = command 0x4E (rdcnChecks s true s.dv[ra]) w s ∧ w s = s.putFpOr rd (some (s.rdcn s.dv[ra])) := by
  obtain ⟨rfl, hown⟩ | ⟨rfl, hb⟩ := hi
  · dsimp only [exec, execFpRdcn]
    rw [decide_eq_true hown]
    exact ⟨_, rfl, rfl⟩
  · dsimp only [exec, execFpRdc]
    rw [hb]
    refine ⟨_, rfl, ?_⟩
    simp only [State.rdc, hb]

/-- `FP.RDCS`, and `FP.RDC` in a sparse build, are one command. -/
theorem exec_rdcs {rd ra : Reg} {i : Instr}
    (hi : i = .fpRdcs rd ra ∧ .sparse ∈ s.build.rdcSet ∨ i = .fpRdc rd ra ∧ s.build.fpRdc = .sparse) :
    ∃ w, exec i s = command 0x4E (rdcsChecks s true s.dv[ra]) w s ∧ w s = s.putFpOr rd (some (s.rdcs s.dv[ra])) := by
  obtain ⟨rfl, hown⟩ | ⟨rfl, hb⟩ := hi
  · dsimp only [exec, execFpRdcs]
    rw [decide_eq_true hown]
    exact ⟨_, rfl, rfl⟩
  · dsimp only [exec, execFpRdc]
    rw [hb]
    refine ⟨_, rfl, ?_⟩
    simp only [State.rdc, hb]

end reduction

/-- Settles O43. -/
theorem fpReduction : Obligations.FpReduction := by
  unfold Obligations.FpReduction
  intro s rd ra i h
  refine ⟨fun hi => ?_, fun hi => ?_, fun hi => ?_⟩
  · obtain ⟨w, he, hw⟩ := exec_rdcn hi
    rw [he]
    refine ⟨fun ha => ?_, fun ha => command_faults (rdcnChecks_fail h ha)⟩
    obtain ⟨hlt, hmod⟩ := rdcn_spec h ha
    obtain ⟨t, ht, htlt, honly, hval⟩ := fp_writes_some (op := 0x4E) h (rdcnChecks_pass h ha) hw hlt
    exact ⟨t, ht, htlt, honly, fun hp => by rw [hval hp, hmod]⟩
  · obtain ⟨w, he, hw⟩ := exec_rdcs hi
    rw [he]
    refine ⟨fun h0 => command_faults (rdcsChecks_config h h0), fun h0 ha => ?_,
      fun h0 ha => command_faults (rdcsChecks_fail h h0 ha)⟩
    have heq := rdcs_eq (staged_of_good h) h0 s.dv[ra]
    exact fp_writes_some h (rdcsChecks_pass h h0 ha) (hw.trans (by rw [heq])) (Nat.mod_lt _ (fpP_pos h))
  · obtain ⟨rfl, hno⟩ | ⟨rfl, hno⟩ := hi
    · dsimp only [exec]
      refine command_faults ?_
      simp only [rdcnChecks, firstFault, needConfig, ready_of_good h, decide_eq_false hno, if_true, Bool.false_eq_true,
        if_false]
    · dsimp only [exec]
      refine command_faults ?_
      simp only [rdcsChecks, firstFault, needConfig, ready_of_good h, decide_eq_false hno, if_true, Bool.false_eq_true,
        if_false]

end Sys2Proof.Proofs.PrimeFieldCommands
end

section
/-! PROOFS. Square roots modulo a prime (43_fp R174): the Tonelli-Shanks method finds a root of every square, and
Euler's criterion tells the others. -/

set_option Elab.async false

namespace Sys2Proof.Proofs.SquareRoot

open Sys2Proof.Machine Sys2Proof.Laws Sys2Proof.Proofs.Context Sys2Proof.Proofs.Residues Sys2Proof.Proofs.Frames
  Sys2Proof.Proofs.PrimeFieldCommands Sys2Proof.Proofs.Exec

/-! The search for the odd part of p − 1 and for a non-residue. -/

theorem twoAdic_spec (fuel : Nat) : ∀ n : Nat, 0 < n → bitlen n ≤ fuel →
    n = 2 ^ (twoAdic fuel n).1 * (twoAdic fuel n).2 ∧ (twoAdic fuel n).2 % 2 = 1 := by
  induction fuel with
  | zero =>
    intro n hn hlen
    have := bitlen_le_iff.mp hlen
    omega
  | succ fuel ih =>
    intro n hn hlen
    rw [twoAdic]
    split
    · rename_i heven
      have hhalf := bitlen_half (e := n) (by omega)
      obtain ⟨heq, hodd⟩ := ih (n / 2) (by omega) (by omega)
      refine ⟨?_, hodd⟩
      dsimp only
      rw [pow_succ, Nat.mul_assoc, Nat.mul_left_comm, ← heq]
      omega
    · exact ⟨by simp, by dsimp only; omega⟩

/-- The search stops at a number that passes the test, if there is one ahead. -/
theorem nonResidue_spec {p y : Nat} (hy : powMod p y ((p - 1) / 2) = p - 1) (fuel : Nat) : ∀ z : Nat, z ≤ y →
    y < z + fuel → powMod p (nonResidue p fuel z) ((p - 1) / 2) = p - 1 := by
  induction fuel with
  | zero =>
    intro z hz hlt
    omega
  | succ fuel ih =>
    intro z hz hlt
    rw [nonResidue]
    split
    · assumption
    · rename_i hno
      have hne : z ≠ y := fun he => hno (he ▸ hy)
      exact ih (z + 1) (by omega) (by omega)

/-! Whatever p is, a candidate is a residue. -/

theorem tonelliLoop_lt {p : Nat} (hp : 0 < p) (k : Nat) : ∀ r t c : Nat, r < p → tonelliLoop p k r t c < p := by
  induction k with
  | zero => exact fun _ _ _ hr => hr
  | succ k ih =>
    intro r t c hr
    rw [tonelliLoop]
    split
    · exact ih _ _ _ hr
    · exact ih _ _ _ (Nat.mod_lt _ hp)

theorem sqrtCandidate_lt {p : Nat} (hp : 0 < p) (x : Nat) : sqrtCandidate p x < p :=
  tonelliLoop_lt hp _ _ _ _ (powMod_lt hp _ _)

theorem sqrtMod_lt {p x y : Nat} (hp : 0 < p) (h : sqrtMod p x = some y) : y < p := by
  unfold sqrtMod at h
  dsimp only at h
  split at h
  · exact Option.some.inj h ▸ sqrtCandidate_lt hp x
  · cases h

/-! In the field of p elements. -/

section field

variable {p : Nat} [hp : Fact p.Prime]

theorem cast_powMod (b e : Nat) : (powMod p b e : ZMod p) = (b : ZMod p) ^ e := by
  rw [powMod_eq hp.out.pos, ZMod.natCast_mod, Nat.cast_pow]

theorem cast_sqrTimes (k : Nat) : ∀ t : Nat, (sqrTimes p k t : ZMod p) = (t : ZMod p) ^ 2 ^ k := by
  induction k with
  | zero => exact fun t => by rw [pow_zero, pow_one]; rfl
  | succ k ih =>
    intro t
    rw [sqrTimes, ih, ZMod.natCast_mod, Nat.cast_mul, pow_succ' 2 k, pow_mul, sq]

theorem sqrTimes_lt (k : Nat) : ∀ t : Nat, t < p → sqrTimes p k t < p := by
  induction k with
  | zero => exact fun t ht => ht
  | succ k ih => exact fun t _ => ih _ (Nat.mod_lt _ hp.out.pos)

theorem cast_inj {a b : Nat} (ha : a < p) (hb : b < p) : (a : ZMod p) = b ↔ a = b := by
  rw [ZMod.natCast_eq_natCast_iff]
  exact ⟨fun h => h.eq_of_lt_of_lt ha hb, fun h => h ▸ rfl⟩

theorem sqrTimes_eq_one {k t : Nat} (ht : t < p) : sqrTimes p k t = 1 ↔ (t : ZMod p) ^ 2 ^ k = 1 := by
  rw [← cast_sqrTimes, ← cast_inj (sqrTimes_lt k t ht) hp.out.one_lt, Nat.cast_one]

/-- What each round keeps: r² = x·t, and the orders of t and c (43_fp R174). -/
theorem tonelliLoop_spec (x : ZMod p) (k : Nat) : ∀ r t c : Nat, r < p → t < p → (r : ZMod p) ^ 2 = x * t →
    (t : ZMod p) ^ 2 ^ k = 1 → (c : ZMod p) ^ 2 ^ k = -1 →
    tonelliLoop p k r t c < p ∧ (tonelliLoop p k r t c : ZMod p) ^ 2 = x := by
  induction k with
  | zero =>
    intro r t c hr _ hrt ht _
    rw [pow_zero, pow_one] at ht
    exact ⟨hr, by rw [tonelliLoop, hrt, ht, mul_one]⟩
  | succ k ih =>
    intro r t c hr htlt hrt ht hc
    have hsq (a : ZMod p) : (a ^ 2) ^ 2 ^ k = a ^ 2 ^ (k + 1) := by rw [← pow_mul, ← pow_succ']
    have hcc : ((c * c % p : Nat) : ZMod p) = (c : ZMod p) ^ 2 := by rw [ZMod.natCast_mod, Nat.cast_mul, sq]
    rw [tonelliLoop]
    split
    · rename_i hone
      exact ih _ _ _ hr htlt hrt ((sqrTimes_eq_one htlt).mp hone) (by rw [hcc, hsq, hc])
    · rename_i hne
      have hminus : (t : ZMod p) ^ 2 ^ k = -1 := by
        have hfac : ((t : ZMod p) ^ 2 ^ k - 1) * ((t : ZMod p) ^ 2 ^ k + 1) = 0 := by
          rw [show ((t : ZMod p) ^ 2 ^ k - 1) * ((t : ZMod p) ^ 2 ^ k + 1) = ((t : ZMod p) ^ 2 ^ k) ^ 2 - 1 by ring,
            ← pow_mul, ← pow_succ, ht, sub_self]
        rcases mul_eq_zero.mp hfac with h | h
        · exact absurd ((sqrTimes_eq_one htlt).mpr (sub_eq_zero.mp h)) hne
        · exact eq_neg_of_add_eq_zero_left h
      refine ih _ _ _ (Nat.mod_lt _ hp.out.pos) (Nat.mod_lt _ hp.out.pos) ?_ ?_ (by rw [hcc, hsq, hc])
      · rw [ZMod.natCast_mod, ZMod.natCast_mod, Nat.cast_mul, Nat.cast_mul, hcc, mul_pow, hrt, mul_assoc]
      · rw [ZMod.natCast_mod, Nat.cast_mul, hcc, mul_pow, hminus, hsq, hc, neg_mul_neg, one_mul]

theorem cast_pred : ((p - 1 : Nat) : ZMod p) = -1 := by
  rw [Nat.cast_sub hp.out.one_le, Nat.cast_one, ZMod.natCast_self, zero_sub]

theorem powMod_eq_pred (x e : Nat) : powMod p x e = p - 1 ↔ (x : ZMod p) ^ e = -1 := by
  rw [← cast_powMod, ← cast_pred,
    cast_inj (powMod_lt hp.out.pos x e) (Nat.sub_lt hp.out.pos Nat.one_pos)]

theorem neg_one_ne_one (hodd : p % 2 = 1) : (-1 : ZMod p) ≠ 1 := by
  have : Fact (2 < p) := ⟨by have := hp.out.two_le; omega⟩
  exact ZMod.neg_one_ne_one

/-- Euler's criterion, on numbers. -/
theorem isNonSquare_iff (hodd : p % 2 = 1) (x : Nat) : isNonSquare p x = true ↔ ¬IsSquare (x : ZMod p) := by
  have hhalf : p / 2 = (p - 1) / 2 := by omega
  rw [isNonSquare, beq_iff_eq, powMod_eq_pred, ← hhalf]
  by_cases h0 : (x : ZMod p) = 0
  · have hexp : p / 2 ≠ 0 := by have := hp.out.two_le; omega
    rw [h0, zero_pow hexp]
    simp
  · rw [ZMod.euler_criterion p h0]
    refine ⟨fun h => by rw [h]; exact neg_one_ne_one hodd, fun h => ?_⟩
    exact (ZMod.pow_div_two_eq_neg_one_or_one p h0).resolve_left h

/-- There is a non-residue between 2 and p − 1. -/
theorem exists_nonResidue (hodd : p % 2 = 1) : ∃ y, 2 ≤ y ∧ y < p ∧ powMod p y ((p - 1) / 2) = p - 1 := by
  obtain ⟨a, ha⟩ := FiniteField.exists_nonsquare (F := ZMod p) (by rw [ZMod.ringChar_zmod_n]; omega)
  have hval : ((a.val : Nat) : ZMod p) = a := ZMod.natCast_zmod_val a
  have hnon := (isNonSquare_iff hodd a.val).mpr (by rwa [hval])
  refine ⟨a.val, ?_, ZMod.val_lt a, beq_iff_eq.mp hnon⟩
  by_contra hlt
  obtain h | h : a.val = 0 ∨ a.val = 1 := by omega
  · rw [h, Nat.cast_zero] at hval
    exact ha (hval ▸ IsSquare.zero)
  · rw [h, Nat.cast_one] at hval
    exact ha (hval ▸ IsSquare.one)

omit hp in
/-- A root from 0 stays 0. -/
theorem tonelliLoop_zero (k : Nat) : ∀ t c : Nat, tonelliLoop p k 0 t c = 0 := by
  induction k with
  | zero => exact fun _ _ => rfl
  | succ k ih =>
    intro t c
    rw [tonelliLoop, Nat.zero_mul, Nat.zero_mod, ih, ih, ite_self]

/-- The method finds a root of every square. -/
theorem sqrtCandidate_spec (hodd : p % 2 = 1) {x : Nat} (hx : IsSquare (x : ZMod p)) :
    (sqrtCandidate p x : ZMod p) ^ 2 = x := by
  have hlen : bitlen (p - 1) ≤ bitlen p :=
    bitlen_le_iff.mpr ((Nat.sub_le p 1).trans_lt (lt_two_pow_bitlen p))
  obtain ⟨heq, hq⟩ := twoAdic_spec (bitlen p) (p - 1) (by have := hp.out.two_le; omega) hlen
  obtain ⟨y, hy2, hyp, hy⟩ := exists_nonResidue hodd
  have hz := nonResidue_spec hy p 2 hy2 (by omega)
  unfold sqrtCandidate
  generalize twoAdic (bitlen p) (p - 1) = sq at *
  obtain ⟨s, q⟩ := sq
  dsimp only at heq hq ⊢
  have hs : s ≠ 0 := fun h0 => by rw [h0, pow_zero, Nat.one_mul] at heq; omega
  obtain ⟨k, rfl⟩ := Nat.exists_eq_succ_of_ne_zero hs
  have hhalf : (p - 1) / 2 = q * 2 ^ k := by
    rw [heq, pow_succ, Nat.mul_comm (2 ^ k) 2, Nat.mul_assoc, Nat.mul_div_cancel_left _ (by norm_num), Nat.mul_comm]
  by_cases h0 : (x : ZMod p) = 0
  · have hr : powMod p x ((q + 1) / 2) = 0 := by
      rw [← cast_inj (powMod_lt hp.out.pos _ _) hp.out.pos, cast_powMod, h0, zero_pow (by omega), Nat.cast_zero]
    rw [hr, tonelliLoop_zero, h0, Nat.cast_zero, zero_pow two_ne_zero]
  · refine (tonelliLoop_spec (x : ZMod p) k _ _ _ (powMod_lt hp.out.pos _ _) (powMod_lt hp.out.pos _ _) ?_ ?_ ?_).2
    · rw [cast_powMod, cast_powMod, ← pow_mul, ← pow_succ']
      congr 1
      omega
    · rw [cast_powMod, ← pow_mul, ← hhalf, show (p - 1) / 2 = p / 2 by omega]
      exact (ZMod.euler_criterion p h0).mp hx
    · rw [cast_powMod, ← pow_mul, ← hhalf]
      exact (powMod_eq_pred _ _).mp hz

theorem sqrtMod_isSquare (hodd : p % 2 = 1) {x : Nat} (hx : IsSquare (x : ZMod p)) :
    ∃ y, sqrtMod p x = some y ∧ y < p ∧ y * y % p = x % p := by
  have hroot : sqrtCandidate p x * sqrtCandidate p x % p = x % p := by
    have := sqrtCandidate_spec hodd hx
    rw [sq, ← Nat.cast_mul] at this
    exact (ZMod.natCast_eq_natCast_iff _ _ _).mp this
  exact ⟨_, if_pos hroot, sqrtCandidate_lt hp.out.pos x, hroot⟩

theorem isSquare_iff (x : Nat) : IsSquare (x : ZMod p) ↔ ∃ y : Nat, y * y % p = x % p := by
  constructor
  · rintro ⟨a, ha⟩
    refine ⟨a.val, (ZMod.natCast_eq_natCast_iff _ _ _).mp ?_⟩
    rw [Nat.cast_mul, ZMod.natCast_zmod_val, ha]
  · rintro ⟨y, hy⟩
    refine ⟨(y : ZMod p), ?_⟩
    rw [← Nat.cast_mul]
    exact ((ZMod.natCast_eq_natCast_iff _ _ _).mpr hy).symm

theorem sqrtMod_nonSquare {x : Nat} (hx : ¬IsSquare (x : ZMod p)) : sqrtMod p x = none := by
  refine if_neg fun h => hx ?_
  exact (isSquare_iff x).mpr ⟨_, h⟩

end field

/-- Either root has the square of the other. -/
theorem chooseRoot_spec {s : State} {y : Nat} (hy : y < s.ctx.fpP) :
    s.chooseRoot y < s.ctx.fpP ∧ s.chooseRoot y * s.chooseRoot y % s.ctx.fpP = y * y % s.ctx.fpP := by
  unfold State.chooseRoot
  split
  · refine ⟨negMod_lt hy, ?_⟩
    unfold negMod
    split
    · rename_i h
      rw [h]
    · obtain ⟨z, hz⟩ : ∃ z, s.ctx.fpP = y + z := ⟨s.ctx.fpP - y, by omega⟩
      have : z * z + y * (y + z) = y * y + z * (y + z) := by ring
      rw [hz, Nat.add_sub_cancel_left, ← Nat.add_mul_mod_self_right (z * z) y, this, Nat.add_mul_mod_self_right]
  · exact ⟨hy, rfl⟩

/-- Settles O42. -/
theorem fpSquareRoot : Obligations.FpSquareRoot := by
  unfold Obligations.FpSquareRoot
  intro s rd ra h hp ha
  have : Fact (Nat.Prime s.ctx.fpP) := ⟨hp⟩
  have hodd := odd_of_good h
  have hval : s.valFp s.fp[ra] < s.ctx.fpP := valFp_lt hp.pos ha
  have hpass : firstFault (fpChecks s [s.fp[ra]]) = none := fpChecks_pass h (List.forall_mem_singleton.mpr ha)
  have hsq : IsSquare ((s.valFp s.fp[ra] : Nat) : ZMod s.ctx.fpP) ↔ ∃ y, y * y % s.ctx.fpP = s.valFp s.fp[ra] := by
    rw [isSquare_iff, Nat.mod_eq_of_lt hval]
  by_cases hx : IsSquare ((s.valFp s.fp[ra] : Nat) : ZMod s.ctx.fpP)
  · obtain ⟨y, hy, hlt, hroot⟩ := sqrtMod_isSquare hodd hx
    obtain ⟨hclt, hcsq⟩ := chooseRoot_spec (s := s) hlt
    have hrep : s.repFp (s.chooseRoot y) < s.ctx.fpP := repFp_lt hp.pos hclt
    have hfp : (((s.putFp rd (s.repFp (s.chooseRoot y))).setT true).drawn 1).fp[rd] = s.repFp (s.chooseRoot y) := by
      rw [drawn_fp, setT_fp, putFp_same, digits_fp h hrep]
    refine ⟨finish (((s.putFp rd (s.repFp (s.chooseRoot y))).setT true).drawn 1), ?_, ?_, rfl, fun r hr => ?_, ?_, ?_, ?_⟩
    · dsimp only [exec, execFpSrt]
      rw [command_completes hpass, fpTrue_of_prime hp, given_true, hy]
    · refine frame_of_untouched (((Wrote.same.putFp rd _).setT true).drawn 1).untouched
        (sameFile_of_ne fun f hf => by cases f <;> first | rfl | exact absurd rfl hf)
    · exact putFp_other s rd r _ hr
    · exact ⟨fun _ => hsq.mp hx, fun _ => rfl⟩
    · intro _
      rw [finish_fp, hfp]
      refine ⟨hrep, ?_⟩
      rw [State.valFp, State.repFp, valFp_repFp hodd hclt, hcsq, hroot, Nat.mod_eq_of_lt hval]
    · intro hf
      cases hf
  · refine ⟨finish (s.setT false), ?_, ?_, rfl, fun r _ => rfl, ?_, ?_, fun _ => rfl⟩
    · dsimp only [exec, execFpSrt]
      rw [command_completes hpass, fpTrue_of_prime hp, given_true, sqrtMod_nonSquare hx, (isNonSquare_iff hodd _).mpr hx]
      rfl
    · exact frame_of_untouched (Wrote.same.setT false).untouched fun f _ => by cases f <;> rfl
    · exact ⟨fun hf => absurd hf Bool.false_ne_true, fun hy => absurd (hsq.mpr hy) hx⟩
    · intro hf
      cases hf

end Sys2Proof.Proofs.SquareRoot
end

section
/-! PROOFS. The binary field (44_fb R201 to R203): integers as polynomials over GF(2), products and remainders, and
the field that an irreducible reduction polynomial gives. -/

set_option Elab.async false

namespace Sys2Proof.Proofs.BinaryPoly

open Sys2Proof.Machine Sys2Proof.Proofs.Context Polynomial

/-! Integers as polynomials (00_scope R19). -/

/-- The polynomial over GF(2) whose coefficients are the bits of `a`. -/
noncomputable def toPoly (a : Nat) : (ZMod 2)[X] :=
  ∑ i ∈ Finset.range (bitlen a), if a.testBit i then X ^ i else 0

theorem testBit_of_bitlen_le {a i : Nat} (h : bitlen a ≤ i) : a.testBit i = false :=
  Nat.testBit_lt_two_pow (bitlen_le_iff.mp h)

theorem coeff_toPoly (a i : Nat) : (toPoly a).coeff i = if a.testBit i then 1 else 0 := by
  have hterm (j : Nat) : (if a.testBit j then (X : (ZMod 2)[X]) ^ j else 0).coeff i =
      if i = j then (if a.testBit j then 1 else 0) else 0 := by
    split <;> simp [coeff_X_pow]
  rw [toPoly, finsetSum_coeff]
  simp only [hterm, Finset.sum_ite_eq, Finset.mem_range]
  split
  · rfl
  · rw [testBit_of_bitlen_le (by omega)]
    rfl

theorem isPoly_iff {a : Nat} {P : (ZMod 2)[X]} : IsPoly a P ↔ P = toPoly a := by
  constructor
  · intro h
    ext i
    rw [h i, coeff_toPoly]
  · rintro rfl i
    exact coeff_toPoly a i

theorem toPoly_injective : Function.Injective toPoly := by
  intro a b h
  refine Nat.eq_of_testBit_eq fun i => ?_
  have := congrArg (fun P : (ZMod 2)[X] => P.coeff i) h
  simp only [coeff_toPoly] at this
  cases ha : a.testBit i <;> cases hb : b.testBit i <;> simp_all

theorem toPoly_zero : toPoly 0 = 0 := rfl

theorem toPoly_one : toPoly 1 = 1 := by
  ext i
  simp only [coeff_toPoly, coeff_one, Nat.testBit_one_eq_true_iff_self_eq_zero]

theorem toPoly_xor (a b : Nat) : toPoly (a ^^^ b) = toPoly a + toPoly b := by
  ext i
  rw [coeff_add, coeff_toPoly, coeff_toPoly, coeff_toPoly, Nat.testBit_xor]
  cases a.testBit i <;> cases b.testBit i <;> rfl

theorem toPoly_mul_two_pow (a j : Nat) : toPoly (a * 2 ^ j) = toPoly a * X ^ j := by
  ext i
  rw [coeff_toPoly, coeff_mul_X_pow', coeff_toPoly, Nat.testBit_mul_two_pow]
  by_cases h : j ≤ i <;> simp [h]

theorem toPoly_two_mul (a : Nat) : toPoly (2 * a) = toPoly a * X := by
  have h := toPoly_mul_two_pow a 1
  rwa [pow_one, pow_one, Nat.mul_comm] at h

/-- A polynomial from its low coefficient and the rest. -/
theorem toPoly_half (a : Nat) : toPoly a = toPoly (a / 2) * X + if a % 2 = 1 then 1 else 0 := by
  rw [← toPoly_two_mul]
  have hsplit : a = 2 * (a / 2) ^^^ a % 2 := by
    refine Nat.eq_of_testBit_eq fun i => ?_
    cases i with
    | zero => simp
    | succ i =>
      have hlow : (a % 2).testBit (i + 1) = false :=
        Nat.testBit_lt_two_pow ((Nat.mod_lt a two_pos).trans_le (Nat.le_self_pow (by omega) 2))
      rw [Nat.testBit_xor, hlow, Nat.testBit_succ, Nat.testBit_succ, Nat.mul_div_cancel_left _ two_pos,
        Bool.xor_false]
  conv_lhs => rw [hsplit, toPoly_xor]
  congr 1
  split
  · rename_i h
    rw [h, toPoly_one]
  · rename_i h
    rw [show a % 2 = 0 by omega, toPoly_zero]

theorem degree_toPoly_lt {a n : Nat} : (toPoly a).degree < n ↔ a < 2 ^ n := by
  rw [degree_lt_iff_coeff_zero]
  constructor
  · intro h
    refine Nat.lt_pow_two_of_testBit a fun i hi => ?_
    have := h i hi
    rw [coeff_toPoly] at this
    cases hb : a.testBit i <;> simp_all
  · intro h i hi
    rw [coeff_toPoly, Nat.testBit_lt_two_pow (h.trans_le (Nat.pow_le_pow_right two_pos hi))]
    rfl

theorem testBit_top {f m : Nat} (h1 : 2 ^ m ≤ f) (h2 : f < 2 ^ (m + 1)) : f.testBit m = true := by
  obtain ⟨r, rfl⟩ := Nat.exists_eq_add_of_le h1
  rw [Nat.testBit_two_pow_add_eq, Nat.testBit_lt_two_pow (by rw [pow_succ] at h2; omega)]
  rfl

/-- A polynomial whose top bit is bit m. -/
theorem monic_toPoly {f m : Nat} (h1 : 2 ^ m ≤ f) (h2 : f < 2 ^ (m + 1)) :
    (toPoly f).Monic ∧ (toPoly f).natDegree = m := by
  have hlt := degree_toPoly_lt.mpr h2
  have hle : (toPoly f).natDegree ≤ m := by
    rw [natDegree_le_iff_coeff_eq_zero]
    exact fun i hi => (degree_lt_iff_coeff_zero _ _).mp hlt i hi
  have hcoeff : (toPoly f).coeff m = 1 := by
    rw [coeff_toPoly, testBit_top h1 h2, if_pos rfl]
  exact ⟨monic_of_natDegree_le_of_coeff_eq_one m hle hcoeff,
    natDegree_eq_of_le_of_coeff_ne_zero hle (by rw [hcoeff]; exact one_ne_zero)⟩

/-- Every polynomial is that of an integer. -/
theorem exists_toPoly {P : (ZMod 2)[X]} {n : Nat} (h : P.degree < n) : ∃ a, a < 2 ^ n ∧ toPoly a = P := by
  refine ⟨Nat.ofBits fun i : Fin n => decide (P.coeff i = 1), Nat.ofBits_lt_two_pow _, ?_⟩
  ext i
  rw [coeff_toPoly]
  by_cases hi : i < n
  · rw [Nat.testBit_ofBits_lt _ _ hi]
    simp only [decide_eq_true_eq]
    generalize P.coeff i = c
    revert c
    decide
  · rw [Nat.testBit_ofBits_ge _ _ (by omega), (degree_lt_iff_coeff_zero _ _).mp h i (by omega)]
    rfl

/-! Products and remainders. -/

theorem bitlen_eq_zero {a : Nat} : bitlen a = 0 ↔ a = 0 := by
  have := bitlen_le_iff (a := a) (n := 0)
  omega

/-- The bit length of a value with top bit n. -/
theorem bitlen_eq_iff {a n : Nat} : bitlen a = n + 1 ↔ 2 ^ n ≤ a ∧ a < 2 ^ (n + 1) := by
  have h1 := bitlen_le_iff (a := a) (n := n)
  have h2 := bitlen_le_iff (a := a) (n := n + 1)
  omega

theorem toPoly_pmulLoop (k : Nat) : ∀ a b acc : Nat, bitlen b ≤ k →
    toPoly (pmulLoop k a b acc) = toPoly acc + toPoly a * toPoly b := by
  induction k with
  | zero =>
    intro a b acc h
    have := bitlen_le_iff.mp h
    obtain rfl : b = 0 := by omega
    rw [pmulLoop, toPoly_zero, mul_zero, add_zero]
  | succ k ih =>
    intro a b acc h
    have hk : bitlen (b / 2) ≤ k := by
      rw [bitlen_le_iff] at h ⊢
      rw [pow_succ] at h
      omega
    rw [pmulLoop, ih _ _ _ hk, toPoly_two_mul, toPoly_half b]
    split
    · rw [toPoly_xor]
      ring
    · ring

theorem toPoly_pmul (a b : Nat) : toPoly (pmul a b) = toPoly a * toPoly b := by
  rw [pmul, toPoly_pmulLoop _ _ _ _ (Nat.le_refl _), toPoly_zero, zero_add]

/-- Two values of the same bit length cancel their top bits. -/
theorem xor_lt_of_bitlen {a b n : Nat} (ha : bitlen a = n + 1) (hb : bitlen b = n + 1) : a ^^^ b < 2 ^ n := by
  obtain ⟨ha1, ha2⟩ := bitlen_eq_iff.mp ha
  obtain ⟨hb1, hb2⟩ := bitlen_eq_iff.mp hb
  refine Nat.lt_pow_two_of_testBit _ fun i hi => ?_
  rw [Nat.testBit_xor]
  obtain rfl | hlt := Nat.eq_or_lt_of_le hi
  · rw [testBit_top ha1 ha2, testBit_top hb1 hb2]
    rfl
  · rw [testBit_of_bitlen_le (by omega), testBit_of_bitlen_le (by omega)]
    rfl

theorem bitlen_mul_two_pow {a : Nat} (ha : a ≠ 0) (j : Nat) : bitlen (a * 2 ^ j) = bitlen a + j := by
  obtain ⟨n, hn⟩ := Nat.exists_eq_succ_of_ne_zero (mt bitlen_eq_zero.mp ha)
  obtain ⟨h1, h2⟩ := bitlen_eq_iff.mp hn
  rw [hn, Nat.succ_add, bitlen_eq_iff]
  constructor
  · rw [pow_add]
    exact Nat.mul_le_mul_right _ h1
  · rw [show n + j + 1 = n + 1 + j by omega, pow_add _ (n + 1)]
    exact Nat.mul_lt_mul_of_pos_right h2 (Nat.two_pow_pos j)

section remainder

variable {m f : Nat} (h1 : 2 ^ m ≤ f) (h2 : f < 2 ^ (m + 1))
include h1 h2

/-- Cancelling the top term shortens a value of degree m or more. -/
theorem bitlen_cancel {c : Nat} (hc : m < bitlen c) : bitlen (c ^^^ f * 2 ^ (bitlen c - 1 - m)) < bitlen c := by
  have hf := bitlen_eq_iff.mpr ⟨h1, h2⟩
  have hf0 : f ≠ 0 := by have := Nat.two_pow_pos m; omega
  have hb : bitlen (f * 2 ^ (bitlen c - 1 - m)) = bitlen c - 1 + 1 := by
    rw [bitlen_mul_two_pow hf0, hf]
    omega
  have := bitlen_le_iff.mpr (xor_lt_of_bitlen (show bitlen c = bitlen c - 1 + 1 by omega) hb)
  omega

theorem pmodLoop_spec (k : Nat) : ∀ c : Nat, bitlen c ≤ m + k →
    pmodLoop m f k c < 2 ^ m ∧ toPoly f ∣ toPoly (pmodLoop m f k c) - toPoly c := by
  induction k with
  | zero =>
    intro c hc
    exact ⟨bitlen_le_iff.mp hc, by rw [pmodLoop, sub_self]; exact dvd_zero _⟩
  | succ k ih =>
    intro c hc
    rw [pmodLoop]
    split
    · rename_i h
      exact ⟨bitlen_le_iff.mp h, by rw [sub_self]; exact dvd_zero _⟩
    · rename_i h
      have hlt := bitlen_cancel h1 h2 (c := c) (by omega)
      obtain ⟨hr, hd⟩ := ih (c ^^^ f * 2 ^ (bitlen c - 1 - m)) (by omega)
      refine ⟨hr, ?_⟩
      rw [toPoly_xor, toPoly_mul_two_pow] at hd
      have : toPoly (pmodLoop m f k (c ^^^ f * 2 ^ (bitlen c - 1 - m))) - toPoly c =
          (toPoly (pmodLoop m f k (c ^^^ f * 2 ^ (bitlen c - 1 - m))) -
            (toPoly c + toPoly f * X ^ (bitlen c - 1 - m))) + toPoly f * X ^ (bitlen c - 1 - m) := by ring
      rw [this]
      exact dvd_add hd (dvd_mul_right _ _)

theorem pmod_lt (c : Nat) : pmod m f c < 2 ^ m := (pmodLoop_spec h1 h2 _ c (by omega)).1

theorem toPoly_pmod (c : Nat) : toPoly (pmod m f c) = toPoly c %ₘ toPoly f := by
  obtain ⟨hmonic, hdeg⟩ := monic_toPoly h1 h2
  obtain ⟨hlt, hdvd⟩ := pmodLoop_spec h1 h2 (bitlen c) c (by omega)
  rw [← modByMonic_eq_of_dvd_sub hmonic hdvd, eq_comm, ← pmod, modByMonic_eq_self_iff hmonic,
    degree_eq_natDegree hmonic.ne_zero, hdeg]
  exact degree_toPoly_lt.mpr hlt

end remainder

end Sys2Proof.Proofs.BinaryPoly
end

section
/-! PROOFS. The binary field (44_fb R200 to R204): where f makes a field, an integer stands for an element of
GF(2)[z]/(f), and the model's operations for those of that field. -/

set_option Elab.async false

namespace Sys2Proof.Proofs.BinaryField

open Sys2Proof.Machine Sys2Proof.Proofs.Context Sys2Proof.Proofs.BinaryPoly Polynomial

/-- The polynomials modulo f. -/
abbrev GF (f : Nat) : Type := AdjoinRoot (toPoly f)

/-- The element that an integer stands for. -/
noncomputable def el (f a : Nat) : GF f := AdjoinRoot.mk (toPoly f) (toPoly a)

theorem el_zero (f : Nat) : el f 0 = 0 := by rw [el, toPoly_zero, map_zero]

theorem el_one (f : Nat) : el f 1 = 1 := by rw [el, toPoly_one, map_one]

theorem el_xor (f a b : Nat) : el f (a ^^^ b) = el f a + el f b := by rw [el, toPoly_xor, map_add]; rfl

theorem el_pmul (f a b : Nat) : el f (pmul a b) = el f a * el f b := by rw [el, toPoly_pmul, map_mul]; rfl

theorem el_mul_two_pow (f a j : Nat) : el f (a * 2 ^ j) = el f a * AdjoinRoot.root (toPoly f) ^ j := by
  rw [el, toPoly_mul_two_pow, map_mul, map_pow, AdjoinRoot.mk_X]
  rfl

theorem el_self (f : Nat) : el f f = 0 := AdjoinRoot.mk_self

/-- The field has characteristic 2. -/
theorem gf_add_self {f : Nat} (x : GF f) : x + x = 0 := by
  obtain ⟨P, rfl⟩ := AdjoinRoot.mk_surjective x
  rw [← map_add, CharTwo.add_self_eq_zero, map_zero]

theorem gf_two {f : Nat} : (2 : GF f) = 0 := by rw [← one_add_one_eq_two, gf_add_self]

theorem gf_neg {f : Nat} (x : GF f) : -x = x := neg_eq_of_add_eq_zero_left (gf_add_self x)

theorem gf_sub {f : Nat} (x y : GF f) : x - y = x + y := by rw [sub_eq_add_neg, gf_neg]

theorem gf_eq_iff_add {f : Nat} {x y : GF f} : x = y ↔ x + y = 0 := by rw [← sub_eq_zero, gf_sub]

theorem gf_add_sq {f : Nat} (x y : GF f) : (x + y) ^ 2 = x ^ 2 + y ^ 2 := by
  rw [add_sq, gf_two]
  ring

theorem gf_add_pow {f : Nat} (x y : GF f) (k : Nat) : (x + y) ^ 2 ^ k = x ^ 2 ^ k + y ^ 2 ^ k := by
  induction k with
  | zero => simp
  | succ k ih => rw [pow_succ, pow_mul, ih, gf_add_sq, ← pow_mul, ← pow_mul]

section bounds

variable {m f : Nat} (h1 : 2 ^ m ≤ f) (h2 : f < 2 ^ (m + 1))
include h1 h2

theorem el_pmod (c : Nat) : el f (pmod m f c) = el f c := by
  rw [el, toPoly_pmod h1 h2, el, AdjoinRoot.mk_eq_mk]
  exact dvd_modByMonic_sub _ _

theorem fbMulP_lt (a b : Nat) : fbMulP m f a b < 2 ^ m := pmod_lt h1 h2 _

theorem el_fbMulP (a b : Nat) : el f (fbMulP m f a b) = el f a * el f b := by
  rw [fbMulP, el_pmod h1 h2, el_pmul]

theorem el_fbSqrP (a : Nat) : el f (fbSqrP m f a) = el f a ^ 2 := by
  rw [fbSqrP, el_fbMulP h1 h2, sq]

theorem fbSqrTimes_lt (k : Nat) : ∀ a, a < 2 ^ m → fbSqrTimes m f k a < 2 ^ m := by
  induction k with
  | zero => exact fun a ha => ha
  | succ k ih => exact fun a _ => ih _ (fbMulP_lt h1 h2 a a)

theorem el_fbSqrTimes (k : Nat) : ∀ a, el f (fbSqrTimes m f k a) = el f a ^ 2 ^ k := by
  induction k with
  | zero => intro a; rw [fbSqrTimes, pow_zero, pow_one]
  | succ k ih => intro a; rw [fbSqrTimes, ih, el_fbSqrP h1 h2, ← pow_mul, pow_succ']

/-- Canonical values that stand for one element are one. -/
theorem el_inj {a b : Nat} (ha : a < 2 ^ m) (hb : b < 2 ^ m) (h : el f a = el f b) : a = b := by
  obtain ⟨hmonic, hdeg⟩ := monic_toPoly h1 h2
  rw [el, el, AdjoinRoot.mk_eq_mk] at h
  refine toPoly_injective (sub_eq_zero.mp (by_contra fun h0 => hmonic.not_dvd_of_degree_lt h0 ?_ h))
  rw [degree_eq_natDegree hmonic.ne_zero, hdeg]
  exact (degree_sub_le _ _).trans_lt (max_lt (degree_toPoly_lt.mpr ha) (degree_toPoly_lt.mpr hb))

theorem el_eq_zero {a : Nat} (ha : a < 2 ^ m) : el f a = 0 ↔ a = 0 := by
  constructor
  · exact fun h => el_inj h1 h2 ha (Nat.two_pow_pos m) (h.trans (el_zero f).symm)
  · rintro rfl
    exact el_zero f

theorem exists_el (x : GF f) : ∃ a, a < 2 ^ m ∧ el f a = x := by
  obtain ⟨P, rfl⟩ := AdjoinRoot.mk_surjective x
  obtain ⟨hmonic, hdeg⟩ := monic_toPoly h1 h2
  have hlt : (P %ₘ toPoly f).degree < m := by
    rw [← hdeg, ← degree_eq_natDegree hmonic.ne_zero]
    exact degree_modByMonic_lt _ hmonic
  obtain ⟨a, ha, he⟩ := exists_toPoly hlt
  refine ⟨a, ha, ?_⟩
  rw [el, he, AdjoinRoot.mk_eq_mk]
  exact dvd_modByMonic_sub _ _

theorem card_gf : Nat.card (GF f) = 2 ^ m := by
  have hb : Function.Bijective fun a : Fin (2 ^ m) => el f a := by
    refine ⟨fun a b h => Fin.ext (el_inj h1 h2 a.isLt b.isLt h), fun x => ?_⟩
    obtain ⟨a, ha, he⟩ := exists_el h1 h2 x
    exact ⟨⟨a, ha⟩, he⟩
  rw [← Nat.card_eq_of_bijective _ hb, Nat.card_fin]

end bounds

/-! The polynomial of a field is irreducible. -/

theorem irreducible_of_fieldPoly {m f : Nat} (hF : FieldPoly m f) (hm : 0 < m) : Irreducible (toPoly f) := by
  obtain ⟨h1, h2, hinv⟩ := hF
  obtain ⟨hmonic, hdeg⟩ := monic_toPoly h1 h2
  refine ⟨fun hu => ?_, fun P Q hPQ => ?_⟩
  · have := natDegree_eq_zero_of_isUnit hu
    omega
  have hP : P ≠ 0 := by rintro rfl; exact hmonic.ne_zero (by rw [hPQ, zero_mul])
  have hQ : Q ≠ 0 := by rintro rfl; exact hmonic.ne_zero (by rw [hPQ, mul_zero])
  rw [hPQ, natDegree_mul hP hQ] at hdeg
  by_cases hQ0 : Q.natDegree = 0
  · exact .inr (isUnit_iff_degree_eq_zero.mpr (by rw [degree_eq_natDegree hQ, hQ0]; rfl))
  left
  obtain ⟨a, ha, rfl⟩ := exists_toPoly (P := P) (n := m) (by
    rw [degree_eq_natDegree hP]
    exact_mod_cast (by omega : P.natDegree < m))
  obtain ⟨x, -, hx⟩ := hinv a (Nat.pos_of_ne_zero (by rintro rfl; exact hP toPoly_zero)) ha
  have hone : el f (pmul a x) = el f 1 := by rw [← hx, fbMulP, el_pmod h1 h2]
  rw [el, el, AdjoinRoot.mk_eq_mk, toPoly_pmul, toPoly_one] at hone
  have hdvd := (Dvd.intro Q hPQ.symm).trans hone
  exact isUnit_of_dvd_one ((dvd_sub_right (dvd_mul_right _ _)).mp hdvd)

theorem fact_irreducible {m f : Nat} (hF : FieldPoly m f) (hm : 0 < m) : Fact (Irreducible (toPoly f)) :=
  ⟨irreducible_of_fieldPoly hF hm⟩

section field

variable {m f : Nat} [Fact (Irreducible (toPoly f))] (h1 : 2 ^ m ≤ f) (h2 : f < 2 ^ (m + 1))
include h1 h2

/-- Every element is its own 2^m-th power. -/
theorem gf_pow_card (x : GF f) : x ^ 2 ^ m = x := by
  have : Finite (GF f) := Nat.finite_of_card_ne_zero (by rw [card_gf h1 h2]; positivity)
  have := Fintype.ofFinite (GF f)
  rw [← card_gf h1 h2, Nat.card_eq_fintype_card, FiniteField.pow_card]

/-- z is not zero where the degree is 2 or more. -/
theorem root_ne_zero (hm : 2 ≤ m) : AdjoinRoot.root (toPoly f) ≠ 0 := by
  have h : el f 2 = AdjoinRoot.root (toPoly f) := by
    have := el_mul_two_pow f 1 1
    rwa [el_one, one_mul, pow_one, pow_one, one_mul] at this
  rw [← h, Ne, el_eq_zero h1 h2 (lt_of_lt_of_le (by norm_num) (Nat.pow_le_pow_right two_pos hm))]
  norm_num

/-- A field polynomial of degree 2 or more is odd. -/
theorem odd_of_irreducible (hm : 2 ≤ m) : f % 2 = 1 := by
  by_contra hne
  have h := toPoly_half f
  rw [if_neg hne, add_zero] at h
  have hz : el f (f / 2) * AdjoinRoot.root (toPoly f) = 0 := by
    rw [el, ← AdjoinRoot.mk_X, ← map_mul, ← h, AdjoinRoot.mk_self]
  have h0 := (mul_eq_zero.mp hz).resolve_right (root_ne_zero h1 h2 hm)
  rw [el_eq_zero h1 h2 (by rw [pow_succ] at h2; omega)] at h0
  have := Nat.two_pow_pos m
  have : 2 ^ 2 ≤ 2 ^ m := Nat.pow_le_pow_right two_pos hm
  omega

end field

end Sys2Proof.Proofs.BinaryField
end

section
/-! PROOFS. The binary-field commands (44_fb R200 to R206): each writes one register, with a canonical value that in
a field is the one of its rule. -/

set_option Elab.async false

namespace Sys2Proof.Proofs.BinaryFieldCommands

open Sys2Proof.Machine Sys2Proof.Laws Sys2Proof.Proofs.Context Sys2Proof.Proofs.Recoding Sys2Proof.Proofs.Frames
  Sys2Proof.Proofs.Faults Sys2Proof.Proofs.Residues Sys2Proof.Proofs.PrimeFieldCommands Sys2Proof.Proofs.BinaryPoly
  Sys2Proof.Proofs.BinaryField

/-! A locked binary context. -/

theorem two_pow_xor_bounds {m x : Nat} (hx : x < 2 ^ m) : 2 ^ m ≤ 2 ^ m ^^^ x ∧ 2 ^ m ^^^ x < 2 ^ (m + 1) := by
  refine ⟨Nat.ge_two_pow_of_testBit ?_, Nat.xor_lt_two_pow ?_ (hx.trans ?_)⟩
  · rw [Nat.testBit_xor, Nat.testBit_two_pow_self, Nat.testBit_lt_two_pow hx]
    rfl
  all_goals exact Nat.pow_lt_pow_right (by norm_num) (Nat.lt_succ_self m)

/-- The reduction polynomial that passed the checks has degree m (10_state R49). -/
theorem fbPoly_bounds {s : State} (hm : 2 ≤ s.build.m) (h : FbStaged s.build s.ctx) :
    2 ^ s.build.m ≤ fbPoly s ∧ fbPoly s < 2 ^ (s.build.m + 1) := by
  have hone : 1 < 2 ^ s.build.m := Nat.one_lt_two_pow (by omega)
  have hpow {k : Nat} (hk : k < s.build.m) : 2 ^ k < 2 ^ s.build.m := Nat.pow_lt_pow_right (by norm_num) hk
  unfold fbPoly
  split
  · rename_i h0
    rw [Nat.xor_assoc]
    refine two_pow_xor_bounds (Nat.xor_lt_two_pow (hpow ?_) hone)
    rcases h.shape with ⟨-, -, -, hlt⟩ | ⟨hlt, -⟩ <;> exact hlt
  · rename_i h0
    obtain ⟨hb, hc, -, -⟩ | ⟨ha, hb, hc, -⟩ := h.shape
    · exact absurd ⟨hb, hc⟩ h0
    · rw [Nat.xor_assoc, Nat.xor_assoc, Nat.xor_assoc]
      exact two_pow_xor_bounds (Nat.xor_lt_two_pow (hpow ha) (Nat.xor_lt_two_pow (hpow (by omega))
        (Nat.xor_lt_two_pow (hpow (by omega)) hone)))

theorem two_le_m {b : Build} (hwf : b.wf = true) (h : b.hasFb = true) : 2 ≤ b.m :=
  (buildOk_of_wf hwf).degree.resolve_left (Nat.pos_iff_ne_zero.mp (of_decide_eq_true h))

section context

variable {s : State} (h : FbGood s)
include h

theorem two_le_degree : 2 ≤ s.build.m := two_le_m h.wf h.unit

theorem fbStaged_of_good : FbStaged s.build s.ctx := (h.sound h.init).2 h.unit

theorem fbReady_of_good : fbReady s = true := Bool.and_eq_true_iff.mpr ⟨h.unit, h.init⟩

theorem le_fbPoly : 2 ^ s.build.m ≤ fbPoly s := (fbPoly_bounds (two_le_degree h) (fbStaged_of_good h)).1

theorem fbPoly_lt : fbPoly s < 2 ^ (s.build.m + 1) := (fbPoly_bounds (two_le_degree h) (fbStaged_of_good h)).2

theorem fb_fits : 2 ^ s.build.m ≤ 2 ^ (s.build.W * s.build.fbDigs) :=
  Nat.pow_le_pow_right two_pos (le_mul_ceil (buildOk_of_wf h.wf).width_pos _)

theorem digits_fb {v : Nat} (hv : v < 2 ^ s.build.m) : digits s.build.W s.build.fbDigs v = v :=
  digits_of_lt (hv.trans_le (fb_fits h))

theorem fbChecks_pass {vs : List Nat} (hvs : ∀ v ∈ vs, v < 2 ^ s.build.m) :
    firstFault (fbChecks s true vs) = none := by
  rw [firstFault_eq_none, fbChecks, List.forall_mem_cons, List.forall_mem_cons, List.forall_mem_map]
  exact ⟨fbReady_of_good h, rfl, fun v hv => decide_eq_true (hvs v hv)⟩

/-- What a command that writes one field element leaves: the value that its rule gives in a field, in any case a
canonical one (93 U10, log 10). -/
theorem fb_writes {op : Nat} {cs : List Check} {w : State → State} {rd : Reg} {v : Option Nat}
    (hpass : firstFault cs = none) (hw : w s = s.putFbOr rd v) (hv : ∀ x, v = some x → x < 2 ^ s.build.m) :
    ∃ t, command op cs w s = .next t ∧ t.fb[rd] < 2 ^ s.build.m ∧ OnlyFb s t rd ∧
      (FieldPoly s.build.m (fbPoly s) → ∀ x, v = some x → t.fb[rd] = x) := by
  refine ⟨finish (s.putFbOr rd v), ?_, ?_, onlyFb_putFbOr s rd v, fun hF x hx => ?_⟩
  · rw [command_completes hpass, hw]
  · rw [finish_fb]
    obtain ⟨x, hx, -, he⟩ | he := putFbOr_cases s rd v
    · rw [he, putFb_same, digits_fb h (hv x hx)]
      exact hv x hx
    · have hfree : s.draw 0 % 2 ^ s.build.m < 2 ^ s.build.m := Nat.mod_lt _ (Nat.two_pow_pos _)
      rw [he, drawn_fb, putFb_same, digits_fb h hfree]
      exact hfree
  · rw [finish_fb, hx, putFbOr_some (fbTrue_of_fieldPoly hF), putFb_same, digits_fb h (hv x hx)]

/-- The same for a value that is always there. -/
theorem fb_writes_some {op : Nat} {cs : List Check} {w : State → State} {rd : Reg} {x : Nat}
    (hpass : firstFault cs = none) (hw : w s = s.putFbOr rd (some x)) (hx : x < 2 ^ s.build.m) :
    ∃ t, command op cs w s = .next t ∧ t.fb[rd] < 2 ^ s.build.m ∧ OnlyFb s t rd ∧
      (FieldPoly s.build.m (fbPoly s) → t.fb[rd] = x) := by
  obtain ⟨t, ht, hlt, honly, hval⟩ := fb_writes h hpass hw fun y hy => Option.some.inj hy ▸ hx
  exact ⟨t, ht, hlt, honly, fun hF => hval hF x rfl⟩

theorem mulFb_lt (a b : Nat) : s.mulFb a b < 2 ^ s.build.m := fbMulP_lt (le_fbPoly h) (fbPoly_lt h) a b

theorem isPoly_mulFb {a b : Nat} : IsPoly (s.mulFb a b) (toPoly a * toPoly b %ₘ toPoly (fbPoly s)) := by
  rw [isPoly_iff, State.mulFb, fbMulP, toPoly_pmod (le_fbPoly h) (fbPoly_lt h), toPoly_pmul]

theorem rdcChecks_pass {a : Nat} (ha : a < 2 ^ (s.build.W * (2 * s.build.fbDigs))) :
    firstFault [needConfig (fbReady s), needInput (highDigitsZero s.build.W s.build.fbDigs a)] = none := by
  simp only [firstFault, needConfig, needInput, fbReady_of_good h, highDigitsZero_iff.mpr ha, if_true]

theorem rdcChecks_fail {a : Nat} (ha : 2 ^ (s.build.W * (2 * s.build.fbDigs)) ≤ a) :
    firstFault [needConfig (fbReady s), needInput (highDigitsZero s.build.W s.build.fbDigs a)] =
      some .invalidInput := by
  have hhigh : highDigitsZero s.build.W s.build.fbDigs a = false := by
    rw [← Bool.not_eq_true, highDigitsZero_iff]
    exact ha.not_gt
  simp only [firstFault, needConfig, needInput, fbReady_of_good h, hhigh, if_true, Bool.false_eq_true, if_false]

omit h in
theorem degree_mul_lt {P Q : Polynomial (ZMod 2)} {j k : Nat} (hP : P.degree < j) (hQ : Q.degree < k) :
    (P * Q).degree < (j + k : Nat) := by
  rcases eq_or_ne P 0 with rfl | hP0
  · rw [zero_mul, Polynomial.degree_zero]
    exact WithBot.bot_lt_coe _
  rcases eq_or_ne Q 0 with rfl | hQ0
  · rw [mul_zero, Polynomial.degree_zero]
    exact WithBot.bot_lt_coe _
  rw [Polynomial.degree_eq_natDegree hP0, Nat.cast_lt] at hP
  rw [Polynomial.degree_eq_natDegree hQ0, Nat.cast_lt] at hQ
  rw [Polynomial.degree_eq_natDegree (mul_ne_zero hP0 hQ0), Polynomial.natDegree_mul hP0 hQ0, Nat.cast_lt]
  omega

/-- An exact product of two field elements fits a `DV` register (44_fb R205). -/
theorem pmul_lt_dv {a b : Nat} (ha : a < 2 ^ s.build.m) (hb : b < 2 ^ s.build.m) :
    pmul a b < 2 ^ (s.build.W * s.build.dvDigs) := by
  have hdeg : (toPoly (pmul a b)).degree < (s.build.m + s.build.m : Nat) := by
    rw [toPoly_pmul]
    exact degree_mul_lt (degree_toPoly_lt.mpr ha) (degree_toPoly_lt.mpr hb)
  refine (degree_toPoly_lt.mp hdeg).trans_le (Nat.pow_le_pow_right two_pos ?_)
  have hdv := (buildOk_of_wf h.wf).dv
  have hm := le_mul_ceil (buildOk_of_wf h.wf).width_pos s.build.m
  calc s.build.m + s.build.m ≤ s.build.W * s.build.fbDigs + s.build.W * s.build.fbDigs := Nat.add_le_add hm hm
    _ = s.build.W * (2 * s.build.fbDigs) := by ring
    _ ≤ s.build.W * s.build.dvDigs := Nat.mul_le_mul_left _ (by omega)

end context

/-- Settles O44. -/
theorem fbPolynomialArithmetic : Obligations.FbPolynomialArithmetic := by
  unfold Obligations.FbPolynomialArithmetic
  intro s rd ra rb A B D F h hA hB hD hF
  rw [isPoly_iff] at hA hB hD hF
  subst hA hB hD hF
  dsimp only [exec]
  refine ⟨fun ha hb => ?_, fun ha => ?_, fun hd => ?_, fun hd => ?_⟩
  · have htwo : firstFault (fbChecks s true [s.fb[ra], s.fb[rb]]) = none :=
      fbChecks_pass h (List.forall_mem_cons.mpr ⟨ha, List.forall_mem_singleton.mpr hb⟩)
    refine ⟨?_, ?_, finish (s.putDvOr (fbTrue s) rd (pmul s.fb[ra] s.fb[rb])), command_completes htwo,
      onlyDv_putDvOr s rd _ _, fun hF => ?_⟩
    · obtain ⟨t, ht, hlt, honly, hval⟩ := fb_writes_some (op := 0x50) (rd := rd)
        (w := fun s => s.putFbOr rd (some (s.fb[ra] ^^^ s.fb[rb]))) h htwo rfl (Nat.xor_lt_two_pow ha hb)
      exact ⟨t, ht, hlt, honly, fun hF => by rw [hval hF, isPoly_iff, toPoly_xor]⟩
    · obtain ⟨t, ht, hlt, honly, hval⟩ := fb_writes_some (op := 0x51) (rd := rd)
        (w := fun s => s.putFbOr rd (some (s.mulFb s.fb[ra] s.fb[rb]))) h htwo rfl (mulFb_lt h s.fb[ra] s.fb[rb])
      exact ⟨t, ht, hlt, honly, fun hF => hval hF ▸ isPoly_mulFb h⟩
    · rw [finish_dv, State.putDvOr, fbTrue_of_fieldPoly hF, if_pos rfl, putDv_eq rd (pmul_lt_dv h ha hb), isPoly_iff,
        toPoly_pmul]
  · have hone : firstFault (fbChecks s true [s.fb[ra]]) = none := fbChecks_pass h (List.forall_mem_singleton.mpr ha)
    obtain ⟨t, ht, hlt, honly, hval⟩ := fb_writes_some (op := 0x52) (rd := rd)
        (w := fun s => s.putFbOr rd (some (s.mulFb s.fb[ra] s.fb[ra]))) h hone rfl (mulFb_lt h s.fb[ra] s.fb[ra])
    exact ⟨t, ht, hlt, honly, fun hF => by rw [hval hF, sq]; exact isPoly_mulFb h⟩
  · obtain ⟨t, ht, hlt, honly, hval⟩ := fb_writes_some (op := 0x54) (rd := rd)
      (w := fun s => s.putFbOr rd (some (pmod s.build.m (fbPoly s) s.dv[ra]))) h (rdcChecks_pass h hd) rfl
      (pmod_lt (le_fbPoly h) (fbPoly_lt h) s.dv[ra])
    exact ⟨t, ht, hlt, honly, fun hF => by rw [hval hF, isPoly_iff, toPoly_pmod (le_fbPoly h) (fbPoly_lt h)]⟩
  · exact command_faults (rdcChecks_fail h hd)

end Sys2Proof.Proofs.BinaryFieldCommands
end

section
/-! PROOFS. Square root, trace and half-trace (44_fb R207 to R209): Tr is additive with values 0 and 1, and by
counting, an element is of the form y² + y exactly when its trace is 0. -/

set_option Elab.async false

namespace Sys2Proof.Proofs.Trace

open Sys2Proof.Machine Sys2Proof.Laws Sys2Proof.Proofs.Context Sys2Proof.Proofs.Frames Sys2Proof.Proofs.Faults
  Sys2Proof.Proofs.BinaryPoly Sys2Proof.Proofs.BinaryField Sys2Proof.Proofs.BinaryFieldCommands Polynomial

/-- The sum x + x² + x⁴ + … of k terms. -/
noncomputable def powerSum {f : Nat} (k : Nat) (x : GF f) : GF f := ∑ i ∈ Finset.range k, x ^ 2 ^ i

section ring

variable {f : Nat}

theorem powerSum_succ (k : Nat) (x : GF f) : powerSum (k + 1) x = powerSum k x + x ^ 2 ^ k :=
  Finset.sum_range_succ _ _

theorem powerSum_succ' (k : Nat) (x : GF f) : powerSum (k + 1) x = powerSum k (x ^ 2) + x := by
  rw [powerSum, Finset.sum_range_succ', pow_zero, pow_one]
  congr 1
  exact Finset.sum_congr rfl fun i _ => by rw [← pow_mul, ← pow_succ']

theorem powerSum_add (k : Nat) (x y : GF f) : powerSum k (x + y) = powerSum k x + powerSum k y := by
  rw [powerSum, powerSum, powerSum, ← Finset.sum_add_distrib]
  exact Finset.sum_congr rfl fun i _ => gf_add_pow x y i

theorem powerSum_zero (k : Nat) : powerSum k (0 : GF f) = 0 :=
  Finset.sum_eq_zero fun _ _ => zero_pow (by positivity)

theorem powerSum_sq (k : Nat) (x : GF f) : powerSum k (x ^ 2) = powerSum k x ^ 2 := by
  induction k with
  | zero => rw [powerSum, powerSum, Finset.sum_range_zero, Finset.sum_range_zero, zero_pow two_ne_zero]
  | succ k ih => rw [powerSum_succ, powerSum_succ, ih, gf_add_sq, ← pow_mul, ← pow_mul, Nat.mul_comm]

/-- The sum of y² + y telescopes. -/
theorem powerSum_artinSchreier (k : Nat) (y : GF f) : powerSum k (y ^ 2 + y) = y ^ 2 ^ k + y := by
  have h := (powerSum_succ' k y).symm.trans (powerSum_succ k y)
  rw [powerSum_add]
  linear_combination h + powerSum k y * gf_two (f := f) - y * gf_two (f := f)

end ring

section loops

variable {m f : Nat} (h1 : 2 ^ m ≤ f) (h2 : f < 2 ^ (m + 1))
include h1 h2

theorem el_fbTraceLoop (k : Nat) : ∀ a acc : Nat,
    el f (fbTraceLoop m f k a acc) = el f acc + powerSum k (el f a) := by
  induction k with
  | zero => exact fun a acc => (add_zero _).symm
  | succ k ih =>
    intro a acc
    rw [fbTraceLoop, ih, el_xor, el_fbSqrP h1 h2, powerSum_succ']
    ring

theorem fbTraceLoop_lt (k : Nat) : ∀ a acc : Nat, a < 2 ^ m → acc < 2 ^ m → fbTraceLoop m f k a acc < 2 ^ m := by
  induction k with
  | zero => exact fun a acc _ hacc => hacc
  | succ k ih => exact fun a acc ha hacc => ih _ _ (fbMulP_lt h1 h2 a a) (Nat.xor_lt_two_pow hacc ha)

theorem el_fbTraceP (a : Nat) : el f (fbTraceP m f a) = powerSum m (el f a) := by
  rw [fbTraceP, el_fbTraceLoop h1 h2, el_zero, zero_add]

theorem fbTraceP_lt {a : Nat} (ha : a < 2 ^ m) : fbTraceP m f a < 2 ^ m :=
  fbTraceLoop_lt h1 h2 m a 0 ha (Nat.two_pow_pos m)

/-- The half-trace and its square are the terms at even and at odd exponents. -/
theorem el_fbHalfTraceLoop (k : Nat) : ∀ c acc : Nat,
    el f (fbHalfTraceLoop m f k c acc) ^ 2 + el f (fbHalfTraceLoop m f k c acc) =
      el f acc ^ 2 + el f acc + powerSum (2 * k) (el f c) := by
  induction k with
  | zero => exact fun c acc => (add_zero _).symm
  | succ k ih =>
    intro c acc
    rw [fbHalfTraceLoop, ih, el_xor, el_fbSqrP h1 h2, el_fbSqrP h1 h2, show 2 * (k + 1) = 2 * k + 1 + 1 by ring,
      powerSum_succ', powerSum_succ', gf_add_sq]
    ring

theorem fbHalfTraceLoop_lt (k : Nat) : ∀ c acc : Nat, c < 2 ^ m → acc < 2 ^ m →
    fbHalfTraceLoop m f k c acc < 2 ^ m := by
  induction k with
  | zero => exact fun c acc _ hacc => hacc
  | succ k ih => exact fun c acc hc hacc => ih _ _ (fbMulP_lt h1 h2 _ _) (Nat.xor_lt_two_pow hacc hc)

end loops

section field

variable {m f : Nat} [Fact (Irreducible (toPoly f))] (h1 : 2 ^ m ≤ f) (h2 : f < 2 ^ (m + 1))
include h1 h2

/-- The trace is 0 or 1. -/
theorem trace_zero_or_one (x : GF f) : powerSum m x = 0 ∨ powerSum m x = 1 := by
  have h := (powerSum_succ' m x).symm.trans (powerSum_succ m x)
  rw [gf_pow_card h1 h2, powerSum_sq] at h
  have hfix : powerSum m x * (powerSum m x - 1) = 0 := by linear_combination h
  rcases mul_eq_zero.mp hfix with h0 | h0
  · exact .inl h0
  · exact .inr (sub_eq_zero.mp h0)

theorem trace_artinSchreier (y : GF f) : powerSum m (y ^ 2 + y) = 0 := by
  rw [powerSum_artinSchreier, gf_pow_card h1 h2, gf_add_self]

/-- At most half of the elements have trace 0: they are the roots of a polynomial of degree 2^(m−1). -/
theorem card_trace_zero (hm : 0 < m) [Fintype (GF f)] [DecidableEq (GF f)] :
    (Finset.univ.filter fun x : GF f => powerSum m x = 0).card ≤ 2 ^ (m - 1) := by
  obtain ⟨k, rfl⟩ := Nat.exists_eq_succ_of_ne_zero hm.ne'
  set T : (GF f)[X] := ∑ i ∈ Finset.range (k + 1), X ^ 2 ^ i with hT
  have hlow : (∑ i ∈ Finset.range k, (X : (GF f)[X]) ^ 2 ^ i).degree < (2 ^ k : Nat) := by
    refine (degree_sum_le _ _).trans_lt ((Finset.sup_lt_iff (WithBot.bot_lt_coe _)).mpr fun i hi => ?_)
    rw [degree_X_pow, Nat.cast_lt]
    exact Nat.pow_lt_pow_right (by norm_num) (Finset.mem_range.mp hi)
  have hmonic : T.Monic ∧ T.natDegree = 2 ^ k := by
    rw [hT, Finset.sum_range_succ, add_comm]
    refine ⟨monic_X_pow_add hlow, ?_⟩
    rw [natDegree_add_eq_left_of_degree_lt (by rwa [degree_X_pow]), natDegree_X_pow]
  rw [Nat.succ_sub_one, ← hmonic.2]
  refine card_le_degree_of_subset_roots fun x hx => ?_
  rw [Finset.filter_val, Multiset.mem_filter] at hx
  rw [mem_roots hmonic.1.ne_zero, IsRoot, hT, eval_finsetSum]
  simp only [eval_pow, eval_X]
  exact hx.2

/-- The elements of the form y² + y are half of all: each comes from two y. -/
theorem card_artinSchreier (hm : 0 < m) [Fintype (GF f)] [DecidableEq (GF f)] :
    2 ^ (m - 1) ≤ (Finset.univ.image fun y : GF f => y ^ 2 + y).card := by
  have hcard : Fintype.card (GF f) = 2 ^ m := by rw [← Nat.card_eq_fintype_card, card_gf h1 h2]
  have hfib : ∀ c ∈ Finset.univ.image (fun y : GF f => y ^ 2 + y),
      (Finset.univ.filter fun y : GF f => y ^ 2 + y = c).card ≤ 2 := by
    intro c hc
    obtain ⟨y, -, rfl⟩ := Finset.mem_image.mp hc
    refine (Finset.card_le_card (t := {y, y + 1}) fun w hw => ?_).trans Finset.card_le_two
    have hw : w ^ 2 + w = y ^ 2 + y := (Finset.mem_filter.mp hw).2
    have hprod : (w - y) * (w - (y + 1)) = 0 := by
      linear_combination hw + (y ^ 2 + y - w * y - w) * gf_two (f := f)
    rw [Finset.mem_insert, Finset.mem_singleton]
    exact (mul_eq_zero.mp hprod).imp sub_eq_zero.mp sub_eq_zero.mp
  have hle := Finset.card_le_mul_card_image (f := fun y : GF f => y ^ 2 + y) Finset.univ 2 hfib
  rw [Finset.card_univ, hcard] at hle
  obtain ⟨k, rfl⟩ := Nat.exists_eq_succ_of_ne_zero hm.ne'
  rw [pow_succ] at hle
  rw [Nat.succ_sub_one]
  omega

/-- An element of trace 0 is of the form y² + y. -/
theorem exists_of_trace_zero (hm : 0 < m) {x : GF f} (hx : powerSum m x = 0) : ∃ y, y ^ 2 + y = x := by
  classical
  have : Finite (GF f) := Nat.finite_of_card_ne_zero (by rw [card_gf h1 h2]; positivity)
  have := Fintype.ofFinite (GF f)
  have hsub : (Finset.univ.image fun y : GF f => y ^ 2 + y) ⊆
      Finset.univ.filter fun x : GF f => powerSum m x = 0 := by
    intro c hc
    obtain ⟨y, -, rfl⟩ := Finset.mem_image.mp hc
    exact Finset.mem_filter.mpr ⟨Finset.mem_univ _, trace_artinSchreier h1 h2 y⟩
  have heq := Finset.eq_of_subset_of_card_le hsub ((card_trace_zero h1 h2 hm).trans (card_artinSchreier h1 h2 hm))
  obtain ⟨y, -, hy⟩ := Finset.mem_image.mp (heq ▸ Finset.mem_filter.mpr ⟨Finset.mem_univ x, hx⟩ :
    x ∈ Finset.univ.image fun y : GF f => y ^ 2 + y)
  exact ⟨y, hy⟩

/-- λ² + λ = a has a solution among the canonical values exactly when the trace of a is 0 (44_fb R208). -/
theorem solvable_iff (hm : 0 < m) {a : Nat} (ha : a < 2 ^ m) :
    (∃ x, x < 2 ^ m ∧ fbMulP m f x x ^^^ x = a) ↔ fbTraceP m f a = 0 := by
  have hlt (x : Nat) (hx : x < 2 ^ m) : fbMulP m f x x ^^^ x < 2 ^ m := Nat.xor_lt_two_pow (fbMulP_lt h1 h2 x x) hx
  rw [← el_eq_zero h1 h2 (fbTraceP_lt h1 h2 ha), el_fbTraceP h1 h2]
  constructor
  · rintro ⟨x, -, rfl⟩
    rw [el_xor, el_fbMulP h1 h2, ← sq, trace_artinSchreier h1 h2]
  · intro h
    obtain ⟨y, hy⟩ := exists_of_trace_zero h1 h2 hm h
    obtain ⟨x, hx, rfl⟩ := exists_el h1 h2 y
    refine ⟨x, hx, el_inj h1 h2 (hlt x hx) ha ?_⟩
    rw [el_xor, el_fbMulP h1 h2, ← sq, hy]

theorem fbTraceP_le_one (hm : 0 < m) {a : Nat} (ha : a < 2 ^ m) : fbTraceP m f a ≤ 1 := by
  have hone : 1 < 2 ^ m := Nat.one_lt_two_pow hm.ne'
  rcases trace_zero_or_one h1 h2 (el f a) with h | h
  · rw [← el_fbTraceP h1 h2, el_eq_zero h1 h2 (fbTraceP_lt h1 h2 ha)] at h
    omega
  · rw [← el_fbTraceP h1 h2, ← el_one] at h
    rw [el_inj h1 h2 (fbTraceP_lt h1 h2 ha) hone h]

theorem fbTraceBit_eq (hm : 0 < m) {a : Nat} (ha : a < 2 ^ m) :
    fbTraceBit m f a = some (decide (fbTraceP m f a ≠ 0)) := by
  have := fbTraceP_le_one h1 h2 hm ha
  unfold fbTraceBit
  obtain h | h : fbTraceP m f a = 0 ∨ fbTraceP m f a = 1 := by omega
  all_goals rw [h]; rfl

/-- a^(2^(m−1)) is the square root (44_fb R207). -/
theorem fbRoot_eq (hm : 0 < m) {a : Nat} (ha : a < 2 ^ m) :
    fbRoot m f a = some (fbSqrtP m f a) ∧ fbMulP m f (fbSqrtP m f a) (fbSqrtP m f a) = a := by
  have hsq : fbMulP m f (fbSqrtP m f a) (fbSqrtP m f a) = a := by
    refine el_inj h1 h2 (fbMulP_lt h1 h2 _ _) ha ?_
    rw [el_fbMulP h1 h2, fbSqrtP, el_fbSqrTimes h1 h2, ← sq, ← pow_mul, ← pow_succ, Nat.sub_add_cancel hm,
      gf_pow_card h1 h2]
  refine ⟨?_, hsq⟩
  rw [fbRoot, Option.filter_some, fbSqrP, hsq, beq_self_eq_true, if_pos rfl]

omit [Fact (Irreducible (toPoly f))] in
theorem fbHalfTraceP_lt {c : Nat} (hc : c < 2 ^ m) : fbHalfTraceP m f c < 2 ^ m :=
  fbHalfTraceLoop_lt h1 h2 _ c 0 hc (Nat.two_pow_pos m)

/-- H(c)² + H(c) = c + Tr(c) for odd m (44_fb R209). -/
theorem fbHalfTraceP_eq (hodd : m % 2 = 1) {c : Nat} (hc : c < 2 ^ m) :
    fbMulP m f (fbHalfTraceP m f c) (fbHalfTraceP m f c) ^^^ fbHalfTraceP m f c = c ^^^ fbTraceP m f c := by
  refine el_inj h1 h2 (Nat.xor_lt_two_pow (fbMulP_lt h1 h2 _ _) (fbHalfTraceP_lt h1 h2 hc))
    (Nat.xor_lt_two_pow hc (fbTraceP_lt h1 h2 hc)) ?_
  rw [el_xor, el_fbMulP h1 h2, ← sq, el_xor, el_fbTraceP h1 h2, fbHalfTraceP, el_fbHalfTraceLoop h1 h2, el_zero,
    show 2 * ((m - 1) / 2 + 1) = m + 1 by omega, powerSum_succ, gf_pow_card h1 h2]
  ring

theorem fbSolve_eq (hodd : m % 2 = 1) {c : Nat} (hc : c < 2 ^ m) : fbSolve m f c = some (fbHalfTraceP m f c) := by
  rw [fbSolve, Option.filter_some, fbSqrP, fbHalfTraceP_eq h1 h2 hodd hc, beq_self_eq_true,
    decide_eq_true (fbTraceP_le_one h1 h2 (by omega) hc), Bool.and_self, if_pos rfl]

end field

/-! The half-trace as the rule writes it. -/

theorem fbHalfTraceLoop_eq_foldl (s : State) (k : Nat) : ∀ c acc : Nat,
    fbHalfTraceLoop s.build.m (fbPoly s) k c acc =
      (List.range k).foldl (fun h i => h ^^^ (fun x => s.mulFb x x)^[2 * i] c) acc := by
  induction k with
  | zero => exact fun c acc => rfl
  | succ k ih =>
    intro c acc
    rw [fbHalfTraceLoop, ih, List.range_succ_eq_map, List.foldl_cons, List.foldl_map]
    rfl

theorem fbHalfTraceP_eq_halfTrace (s : State) (c : Nat) : fbHalfTraceP s.build.m (fbPoly s) c = s.halfTrace c :=
  fbHalfTraceLoop_eq_foldl s _ c 0

/-- Settles O45. -/
theorem fbRootTraceHalfTrace : Obligations.FbRootTraceHalfTrace := by
  unfold Obligations.FbRootTraceHalfTrace
  intro s rd ra h hF ha
  have hm := two_le_degree h
  have := fact_irreducible hF (by omega)
  have h1 := le_fbPoly h
  have h2 := fbPoly_lt h
  have hone : firstFault (fbChecks s true [s.fb[ra]]) = none := fbChecks_pass h (List.forall_mem_singleton.mpr ha)
  dsimp only [exec]
  refine ⟨?_, ?_, fun hodd => ?_, fun heven => command_faults ?_⟩
  · obtain ⟨hroot, hsq⟩ := fbRoot_eq h1 h2 (by omega) ha
    obtain ⟨t, ht, hlt, honly, hval⟩ := fb_writes_some (op := 0x55) (rd := rd)
      (w := fun s => s.putFbOr rd (fbRoot s.build.m (fbPoly s) s.fb[ra])) h hone (congrArg _ hroot)
      (fbSqrTimes_lt h1 h2 _ _ ha)
    exact ⟨t, ht, hlt, by rw [hval hF]; exact hsq, honly⟩
  · refine ⟨finish (s.setT (decide (fbTraceP s.build.m (fbPoly s) s.fb[ra] ≠ 0))), ?_, ?_, rfl, ?_⟩
    · rw [execFbTrc, command_completes hone, fbTraceBit_eq h1 h2 (by omega) ha, fbTrue_of_fieldPoly hF]
      rfl
    · exact FlagsRegister.onlyFlags_setT s _
    · show decide _ = false ↔ _
      rw [decide_eq_false_iff_not, not_not]
      exact (solvable_iff h1 h2 (by omega) ha).symm
  · have hsolve := fbSolve_eq h1 h2 hodd ha
    have hpass : firstFault (fbChecks s (s.build.m % 2 == 1) [s.fb[ra]]) = none := by
      rw [beq_iff_eq.mpr hodd]
      exact hone
    obtain ⟨t, ht, hlt, honly, hval⟩ := fb_writes_some (op := 0x57) (rd := rd)
      (w := fun s => s.putFbOr rd (fbSolve s.build.m (fbPoly s) s.fb[ra])) h hpass (congrArg _ hsolve)
      (fbHalfTraceP_lt h1 h2 ha)
    refine ⟨t, ht, by rw [hval hF, fbHalfTraceP_eq_halfTrace], hlt, honly, fun hex => ?_⟩
    have hzero := (solvable_iff h1 h2 (by omega) ha).mp hex
    have heq := fbHalfTraceP_eq h1 h2 hodd ha
    rw [hzero, Nat.xor_zero] at heq
    rw [hval hF]
    exact heq
  · simp only [fbChecks, firstFault, needConfig, fbReady_of_good h, heven, if_true]
    rfl

end Sys2Proof.Proofs.Trace
end

section
/-! PROOFS. Inversion in the binary field (44_fb R211 to R217): each algorithm keeps an equation between its
cofactors and the source, and ends within its bound. -/

set_option Elab.async false

namespace Sys2Proof.Proofs.Inversion

open Sys2Proof.Machine Sys2Proof.Laws Sys2Proof.Proofs.Context Sys2Proof.Proofs.Recoding Sys2Proof.Proofs.Frames
  Sys2Proof.Proofs.Faults Sys2Proof.Proofs.BinaryPoly Sys2Proof.Proofs.BinaryField
  Sys2Proof.Proofs.BinaryFieldCommands Polynomial

/-! Bit lengths and coprimality of values read as polynomials. -/

theorem bitlen_pos {u : Nat} (hu : u ≠ 0) : 0 < bitlen u := Nat.pos_of_ne_zero (mt bitlen_eq_zero.mp hu)

/-- Aligning the shorter value under the longer one cancels the top bit. -/
theorem bitlen_xor_shift {u v : Nat} (hu : u ≠ 0) (h : bitlen u ≤ bitlen v) :
    bitlen (v ^^^ u * 2 ^ (bitlen v - bitlen u)) < bitlen v := by
  have hpos := bitlen_pos hu
  have hs := bitlen_mul_two_pow hu (bitlen v - bitlen u)
  have := bitlen_le_iff.mpr (xor_lt_of_bitlen (n := bitlen v - 1) (a := v) (by omega) (hs.trans (by omega)))
  omega

theorem bitlen_xor_le {u v n : Nat} (hu : bitlen u ≤ n) (hv : bitlen v ≤ n) : bitlen (u ^^^ v) ≤ n :=
  bitlen_le_iff.mpr (Nat.xor_lt_two_pow (bitlen_le_iff.mp hu) (bitlen_le_iff.mp hv))

theorem xor_odd {u v : Nat} (hu : u % 2 = 1) (hv : v % 2 = 1) : (u ^^^ v) % 2 = 0 := by
  have := Nat.xor_mod_two_eq_one (a := u) (b := v)
  simp only [hu, hv, iff_self, not_true_eq_false, iff_false] at this
  omega

theorem eq_one_of_coprime_zero {u : Nat} (h : IsCoprime (toPoly u) (toPoly 0)) : u = 1 := by
  rw [toPoly_zero, isCoprime_zero_right] at h
  have hlt : u < 2 ^ 1 := degree_toPoly_lt.mp (by
    rw [degree_eq_zero_of_isUnit h]
    exact WithBot.coe_lt_coe.mpr Nat.zero_lt_one)
  have hne : u ≠ 0 := by
    rintro rfl
    exact not_isUnit_zero (toPoly_zero ▸ h)
  omega

/-- Adding a shifted multiple of the other keeps two values coprime. -/
theorem coprime_xor_shift {u v : Nat} (h : IsCoprime (toPoly u) (toPoly v)) (j : Nat) :
    IsCoprime (toPoly (u ^^^ v * 2 ^ j)) (toPoly v) := by
  rw [toPoly_xor, toPoly_mul_two_pow]
  exact h.add_mul_left_left _

theorem coprime_xor {u v : Nat} (h : IsCoprime (toPoly u) (toPoly v)) : IsCoprime (toPoly (u ^^^ v)) (toPoly v) := by
  have := coprime_xor_shift h 0
  rwa [pow_zero, Nat.mul_one] at this

theorem coprime_of_shift {u v j : Nat} (h : IsCoprime (toPoly (u * 2 ^ j)) (toPoly v)) :
    IsCoprime (toPoly u) (toPoly v) := by
  rw [toPoly_mul_two_pow] at h
  exact h.of_mul_left_left

section field

variable {m f : Nat} (h1 : 2 ^ m ≤ f) (h2 : f < 2 ^ (m + 1)) (hm : 2 ≤ m)

include h1 h2 in
theorem el_ne_zero [Fact (Irreducible (toPoly f))]
    {a : Nat} (ha : a < 2 ^ m) (h0 : a ≠ 0) : el f a ≠ 0 := mt (el_eq_zero h1 h2 ha).mp h0

include h1 h2 in
/-- A non-zero canonical value is coprime to f. -/
theorem coprime_poly [hirr : Fact (Irreducible (toPoly f))]
    {a : Nat} (ha : a < 2 ^ m) (h0 : a ≠ 0) : IsCoprime (toPoly a) (toPoly f) := by
  refine ((hirr.out.coprime_iff_not_dvd).mpr fun hd => ?_).symm
  exact el_ne_zero h1 h2 ha h0 (AdjoinRoot.mk_eq_zero.mpr hd)

/-! The extended Euclidean algorithm (44_fb R215). -/

theorem exgcdLoop_spec {a : Nat} (k : Nat) : ∀ u v g1 g2 : Nat, bitlen u + bitlen v ≤ k →
    IsCoprime (toPoly u) (toPoly v) → v ≠ 1 → el f a * el f g1 = el f u → el f a * el f g2 = el f v →
    ∃ g, exgcdLoop k u v g1 g2 = some g ∧ el f a * el f g = 1 := by
  induction k with
  | zero =>
    intro u v g1 g2 hk hc hv _ _
    obtain rfl : v = 0 := bitlen_eq_zero.mp (by omega)
    obtain rfl : u = 0 := bitlen_eq_zero.mp (by omega)
    exact absurd (eq_one_of_coprime_zero hc) (by norm_num)
  | succ k ih =>
    intro u v g1 g2 hk hc hv hg1 hg2
    have hcancel {x y g h : Nat} (j : Nat) (hx : el f a * el f g = el f x) (hy : el f a * el f h = el f y) :
        el f a * el f (g ^^^ h * 2 ^ j) = el f (x ^^^ y * 2 ^ j) := by
      rw [el_xor, el_xor, el_mul_two_pow, el_mul_two_pow, ← hx, ← hy]
      ring
    rw [exgcdLoop]
    split
    · rename_i hu
      exact ⟨g1, rfl, by rw [hg1, hu, el_one]⟩
    rename_i hu
    have hu0 : u ≠ 0 := by
      rintro rfl
      exact hv (eq_one_of_coprime_zero hc.symm)
    have hv0 : v ≠ 0 := by
      rintro rfl
      exact hu (eq_one_of_coprime_zero hc)
    rw [if_neg (not_or.mpr ⟨hu0, hv0⟩)]
    split
    · rename_i hlt
      have := bitlen_xor_shift hu0 hlt.le
      exact ih _ _ _ _ (by omega) (coprime_xor_shift hc.symm _) hu (hcancel _ hg2 hg1) hg1
    · rename_i hlt
      have := bitlen_xor_shift hv0 (not_lt.mp hlt)
      exact ih _ _ _ _ (by omega) (coprime_xor_shift hc _) hv (hcancel _ hg1 hg2) hg2

include h1 h2 hm in
theorem invExgcd_spec [Fact (Irreducible (toPoly f))] {a : Nat} (ha : a < 2 ^ m) (h0 : a ≠ 0) :
    ∃ g, invExgcd m f a = some g ∧ el f a * el f g = 1 := by
  have hla := bitlen_le_iff.mpr ha
  have hlf := bitlen_le_iff.mpr h2
  have hf1 : f ≠ 1 := by
    have := Nat.one_lt_two_pow (n := m) (by omega)
    omega
  exact exgcdLoop_spec _ a f 1 0 (by omega) (coprime_poly h1 h2 ha h0) hf1 (by rw [el_one, mul_one])
    (by rw [el_zero, mul_zero, el_self])

/-! Division by z. -/

theorem el_even {g : Nat} (h : g % 2 = 0) : el f g = el f (g / 2) * AdjoinRoot.root (toPoly f) := by
  have := el_mul_two_pow f (g / 2) 1
  rwa [pow_one, pow_one, show g / 2 * 2 = g by omega] at this

include h1 h2 hm in
/-- Half of a value or of its sum with f, whichever is even, is its quotient by z (44_fb R213). -/
theorem el_divide_z [Fact (Irreducible (toPoly f))] (g : Nat) :
    el f g = el f (if g % 2 = 0 then g / 2 else (g ^^^ f) / 2) * AdjoinRoot.root (toPoly f) := by
  split
  · rename_i h
    exact el_even h
  · rename_i h
    rw [← el_even (xor_odd (by omega) (odd_of_irreducible h1 h2 hm)), el_xor, el_self, add_zero]

/-! The binary algorithm (44_fb R213). -/

include h1 h2 hm in
/-- "while u is even" ends with the odd part of u, and keeps the equation of the cofactor. -/
theorem binarShift_spec [Fact (Irreducible (toPoly f))]
    {a : Nat} (n : Nat) : ∀ u g : Nat, bitlen u ≤ n → u ≠ 0 → el f a * el f g = el f u →
    (binarShift f n u g).1 % 2 = 1 ∧ bitlen (binarShift f n u g).1 ≤ bitlen u ∧
      (u % 2 = 0 → bitlen (binarShift f n u g).1 < bitlen u) ∧
      (∃ j, u = (binarShift f n u g).1 * 2 ^ j) ∧
      el f a * el f (binarShift f n u g).2 = el f (binarShift f n u g).1 := by
  induction n with
  | zero => exact fun u g hn h0 _ => absurd (bitlen_eq_zero.mp (by omega)) h0
  | succ n ih =>
    intro u g hn h0 hg
    rw [binarShift]
    split
    · rename_i hodd
      have hodd : u % 2 = 1 := hodd.resolve_left h0
      exact ⟨hodd, le_refl _, fun h => by omega, ⟨0, by rw [pow_zero, Nat.mul_one]⟩, hg⟩
    · rename_i heven
      have hu : u = u / 2 * 2 ^ 1 := by omega
      have hh0 : u / 2 ≠ 0 := by omega
      have hlen : bitlen u = bitlen (u / 2) + 1 := by
        conv_lhs => rw [hu]
        exact bitlen_mul_two_pow hh0 1
      have hg' : el f a * el f (if g % 2 = 0 then g / 2 else (g ^^^ f) / 2) = el f (u / 2) := by
        refine mul_right_cancel₀ (root_ne_zero h1 h2 hm) ?_
        rw [mul_assoc, ← el_divide_z h1 h2 hm, hg, el_even (by omega)]
      obtain ⟨hodd, hle, -, ⟨j, hj⟩, hres⟩ := ih (u / 2) _ (by omega) hh0 hg'
      refine ⟨hodd, by omega, fun _ => by omega, ⟨j + 1, ?_⟩, hres⟩
      rw [pow_succ, ← Nat.mul_assoc, ← hj]
      omega

include h1 h2 hm in
theorem binarLoop_spec [Fact (Irreducible (toPoly f))]
    {a : Nat} (k : Nat) : ∀ u v g1 g2 : Nat, bitlen u ≤ m + 1 → bitlen v ≤ m + 1 →
    bitlen u + bitlen v + (if u % 2 = 1 ∧ v % 2 = 1 then 1 else 0) ≤ k →
    IsCoprime (toPoly u) (toPoly v) → el f a * el f g1 = el f u → el f a * el f g2 = el f v →
    ∃ g, binarLoop m f k u v g1 g2 = some g ∧ el f a * el f g = 1 := by
  induction k with
  | zero =>
    intro u v g1 g2 _ _ hk hc _ _
    obtain rfl : v = 0 := bitlen_eq_zero.mp (by omega)
    obtain rfl : u = 0 := bitlen_eq_zero.mp (by omega)
    exact absurd (eq_one_of_coprime_zero hc) (by norm_num)
  | succ k ih =>
    intro u v g1 g2 hmu hmv hk hc hg1 hg2
    rw [binarLoop]
    split
    · rename_i hu
      exact ⟨g1, rfl, by rw [hg1, hu, el_one]⟩
    rename_i hu
    split
    · rename_i hv
      exact ⟨g2, rfl, by rw [hg2, hv, el_one]⟩
    rename_i hv
    have hu0 : u ≠ 0 := by
      rintro rfl
      exact hv (eq_one_of_coprime_zero hc.symm)
    have hv0 : v ≠ 0 := by
      rintro rfl
      exact hu (eq_one_of_coprime_zero hc)
    rw [if_neg (not_or.mpr ⟨hu0, hv0⟩)]
    obtain ⟨huo, hule, hult, ⟨i, hi⟩, hgu⟩ := binarShift_spec h1 h2 hm (m + 1) u g1 hmu hu0 hg1
    obtain ⟨hvo, hvle, hvlt, ⟨j, hj⟩, hgv⟩ := binarShift_spec h1 h2 hm (m + 1) v g2 hmv hv0 hg2
    have hcop : IsCoprime (toPoly (binarShift f (m + 1) u g1).1) (toPoly (binarShift f (m + 1) v g2).1) := by
      rw [hi] at hc
      have hc := (coprime_of_shift hc).symm
      rw [hj] at hc
      exact (coprime_of_shift hc).symm
    generalize binarShift f (m + 1) u g1 = p at huo hule hult hgu hcop ⊢
    generalize binarShift f (m + 1) v g2 = q at hvo hvle hvlt hgv hcop ⊢
    have hshort : bitlen p.1 + bitlen q.1 ≤ k := by
      split at hk <;> omega
    dsimp only
    split
    · rename_i hlt
      have hlen := bitlen_xor_le (le_refl (bitlen p.1)) hlt.le
      have heven := xor_odd huo hvo
      refine ih _ _ _ _ (by omega) (by omega) ?_ (coprime_xor hcop) (by rw [el_xor, el_xor, ← hgu, ← hgv]; ring) hgv
      rw [if_neg (by omega)]
      omega
    · rename_i hlt
      have hlen := bitlen_xor_le (le_refl (bitlen q.1)) (not_lt.mp hlt)
      have heven := xor_odd hvo huo
      refine ih _ _ _ _ (by omega) (by omega) ?_ (coprime_xor hcop.symm).symm hgu
        (by rw [el_xor, el_xor, ← hgu, ← hgv]; ring)
      rw [if_neg (by omega)]
      omega

include h1 h2 hm in
theorem invBinar_spec [Fact (Irreducible (toPoly f))] {a : Nat} (ha : a < 2 ^ m) (h0 : a ≠ 0) :
    ∃ g, invBinar m f a = some g ∧ el f a * el f g = 1 := by
  have hla := bitlen_le_iff.mpr ha
  have hlf := bitlen_le_iff.mpr h2
  refine binarLoop_spec h1 h2 hm _ a f 1 0 (by omega) hlf ?_ (coprime_poly h1 h2 ha h0) (by rw [el_one, mul_one])
    (by rw [el_zero, mul_zero, el_self])
  split <;> omega

/-! The almost inverse (44_fb R214). -/

/-- "while u is even" moves the power of z from u to d. -/
theorem almosShift_spec (n : Nat) : ∀ u d k : Nat, bitlen u ≤ n → u ≠ 0 →
    ∃ u' j, almosShift n u d k = (u', d * 2 ^ j, k + j) ∧ u = u' * 2 ^ j ∧ u' % 2 = 1 ∧ bitlen u = bitlen u' + j := by
  induction n with
  | zero => exact fun u d k hn h0 => absurd (bitlen_eq_zero.mp (by omega)) h0
  | succ n ih =>
    intro u d k hn h0
    rw [almosShift]
    split
    · rename_i hodd
      exact ⟨u, 0, by simp, by simp, hodd.resolve_left h0, rfl⟩
    · rename_i heven
      have hu : u = u / 2 * 2 ^ 1 := by omega
      have hh0 : u / 2 ≠ 0 := by omega
      have hlen : bitlen u = bitlen (u / 2) + 1 := by
        conv_lhs => rw [hu]
        exact bitlen_mul_two_pow hh0 1
      obtain ⟨u', j, he, hj, hodd, hl⟩ := ih (u / 2) (d * 2) (k + 1) (by omega) hh0
      refine ⟨u', j + 1, ?_, ?_, hodd, by omega⟩
      · rw [he, pow_succ, Nat.mul_assoc, Nat.mul_comm 2, show k + 1 + j = k + (j + 1) by omega]
      · rw [pow_succ, ← Nat.mul_assoc, ← hj]
        omega

theorem almosLoop_spec {a : Nat} (n : Nat) : ∀ b d u v k : Nat, bitlen u ≤ m + 1 → bitlen v ≤ m + 1 →
    bitlen u + bitlen v + u % 2 ≤ n → v % 2 = 1 → v ≠ 1 → IsCoprime (toPoly u) (toPoly v) →
    el f a * el f b = AdjoinRoot.root (toPoly f) ^ k * el f u →
    el f a * el f d = AdjoinRoot.root (toPoly f) ^ k * el f v →
    ∃ b' k', almosLoop m n b d u v k = some (b', k') ∧ el f a * el f b' = AdjoinRoot.root (toPoly f) ^ k' := by
  induction n with
  | zero =>
    intro b d u v k _ _ hn hvo _ _ _ _
    obtain rfl : v = 0 := bitlen_eq_zero.mp (by omega)
    omega
  | succ n ih =>
    intro b d u v k hmu hmv hn hvo hv hc hb hd
    have hu0 : u ≠ 0 := by
      rintro rfl
      exact hv (eq_one_of_coprime_zero hc.symm)
    obtain ⟨u', j, he, rfl, hodd, hlen⟩ := almosShift_spec (m + 1) u d k hmu hu0
    have hc' := coprime_of_shift hc
    have hb' : el f a * el f b = AdjoinRoot.root (toPoly f) ^ (k + j) * el f u' := by
      rw [hb, el_mul_two_pow, pow_add]
      ring
    have hd' : el f a * el f (d * 2 ^ j) = AdjoinRoot.root (toPoly f) ^ (k + j) * el f v := by
      rw [el_mul_two_pow, ← mul_assoc, hd, pow_add]
      ring
    have hshort : bitlen u' + bitlen v ≤ n := by
      rcases Nat.eq_zero_or_pos j with rfl | hj
      · rw [pow_zero, Nat.mul_one] at hn
        omega
      · omega
    rw [almosLoop, he]
    dsimp only
    split
    · rename_i hu
      exact ⟨b, k + j, rfl, by rw [hb', hu, el_one, mul_one]⟩
    rename_i hu
    rw [if_neg (by omega)]
    split
    · rename_i hlt
      have heven := xor_odd hvo hodd
      have hl := bitlen_xor_le (le_refl (bitlen v)) hlt.le
      exact ih _ _ _ _ _ (by omega) (by omega) (by omega) hodd hu (coprime_xor hc'.symm)
        (by rw [el_xor, el_xor, mul_add, mul_add, hb', hd']) hb'
    · rename_i hlt
      have heven := xor_odd hodd hvo
      have hl := bitlen_xor_le (le_refl (bitlen u')) (not_lt.mp hlt)
      exact ih _ _ _ _ _ (by omega) (by omega) (by omega) hvo hv (coprime_xor hc')
        (by rw [el_xor, el_xor, mul_add, mul_add, hb', hd']) hd'

include h1 h2 hm in
theorem divideZ_spec [Fact (Irreducible (toPoly f))]
    (k : Nat) : ∀ b, el f (divideZ f k b) * AdjoinRoot.root (toPoly f) ^ k = el f b := by
  induction k with
  | zero => intro b; rw [divideZ, pow_zero, mul_one]
  | succ k ih =>
    intro b
    have hstep : (if b % 2 = 1 then b ^^^ f else b) / 2 = if b % 2 = 0 then b / 2 else (b ^^^ f) / 2 := by
      rcases Nat.mod_two_eq_zero_or_one b with h | h <;> simp [h]
    rw [divideZ, pow_succ, ← mul_assoc, ih, hstep, ← el_divide_z h1 h2 hm]

include h1 h2 hm in
theorem invAlmos_spec [Fact (Irreducible (toPoly f))] {a : Nat} (ha : a < 2 ^ m) (h0 : a ≠ 0) :
    ∃ g, invAlmos m f a = some g ∧ el f a * el f g = 1 := by
  have hla := bitlen_le_iff.mpr ha
  have hlf := bitlen_le_iff.mpr h2
  have hf1 : f ≠ 1 := by
    have := Nat.one_lt_two_pow (n := m) (by omega)
    omega
  obtain ⟨b, k, he, hb⟩ := almosLoop_spec (m := m) (f := f) (a := a) (2 * m + 2) 1 0 a f 0 (by omega) hlf (by omega)
    (odd_of_irreducible h1 h2 hm) hf1 (coprime_poly h1 h2 ha h0) (by rw [el_one, mul_one, pow_zero, one_mul])
    (by rw [el_zero, mul_zero, el_self, mul_zero])
  refine ⟨divideZ f k b, by rw [invAlmos, he]; rfl, ?_⟩
  refine mul_right_cancel₀ (pow_ne_zero k (root_ne_zero h1 h2 hm)) ?_
  rw [mul_assoc, divideZ_spec h1 h2 hm, hb, one_mul]

/-! Powers (44_fb R212, R216). -/

theorem two_pow_sub_one_add (x y : Nat) : (2 ^ x - 1) * 2 ^ y + (2 ^ y - 1) = 2 ^ (x + y) - 1 := by
  have hx := Nat.two_pow_pos x
  have hy := Nat.two_pow_pos y
  have hle : 2 ^ y ≤ 2 ^ x * 2 ^ y := Nat.le_mul_of_pos_left _ hx
  rw [Nat.sub_mul, Nat.one_mul, pow_add]
  omega

include h1 h2 in
/-- a^(2^m − 2) is the inverse. -/
theorem mul_pow_eq_one [Fact (Irreducible (toPoly f))]
    {x : GF f} (hx : x ≠ 0) (hm1 : 1 ≤ m) : x * (x ^ (2 ^ (m - 1) - 1)) ^ 2 = 1 := by
  have hpos := Nat.two_pow_pos (m - 1)
  have hpow : 2 ^ m = (2 ^ (m - 1) - 1) * 2 + 1 + 1 := by
    conv_lhs => rw [← Nat.sub_add_cancel hm1, pow_succ]
    omega
  have hcard := gf_pow_card h1 h2 x
  rw [hpow, pow_succ] at hcard
  rw [← pow_mul, ← pow_succ']
  exact mul_right_cancel₀ hx (hcard.trans (one_mul x).symm)

include h1 h2 in
theorem basicLoop_spec (k : Nat) : ∀ u v x : Nat, x < 2 ^ k →
    el f (basicLoop m f k u v x) = el f v * el f u ^ (2 ^ (2 * x) - 1) := by
  induction k with
  | zero =>
    intro u v x hx
    obtain rfl : x = 0 := by omega
    rw [basicLoop]
    simp
  | succ k ih =>
    intro u v x hx
    rw [pow_succ] at hx
    rw [basicLoop]
    split
    · rename_i h0
      simp [h0]
    have hstep : el f (fbMulP m f u (fbSqrTimes m f x u)) = el f u ^ (1 + 2 ^ x) := by
      rw [el_fbMulP h1 h2, el_fbSqrTimes h1 h2, pow_add, pow_one]
    have hexp : (1 + 2 ^ x) * (2 ^ x - 1) = 2 ^ (2 * x) - 1 := by
      rw [Nat.two_mul, ← two_pow_sub_one_add x x]
      ring
    dsimp only
    split
    · rename_i heven
      rw [ih _ _ _ (by omega), hstep, ← pow_mul, show 2 * (x / 2) = x by omega, hexp]
    · rename_i hodd
      rw [ih _ _ _ (by omega), el_fbMulP h1 h2, el_fbSqrP h1 h2, hstep, ← pow_mul, ← pow_mul, mul_assoc, ← pow_add,
        ← hexp, ← Nat.mul_assoc, Nat.mul_assoc (1 + 2 ^ x)]
      obtain ⟨y, rfl⟩ : ∃ y, x = y + 1 := ⟨x - 1, by omega⟩
      rw [show 2 * ((y + 1 - 1) / 2) = y by omega]
      have hy := Nat.two_pow_pos y
      have : 1 + 2 * (2 ^ y - 1) = 2 ^ (y + 1) - 1 := by
        rw [pow_succ]
        omega
      rw [← this]
      ring_nf

include h1 h2 hm in
theorem invBasic_spec [Fact (Irreducible (toPoly f))]
    {a : Nat} (ha : a < 2 ^ m) (h0 : a ≠ 0) (hodd : m % 2 = 1) :
    el f a * el f (invBasic m f a) = 1 := by
  rw [invBasic, basicLoop_spec h1 h2 _ _ _ _ ((Nat.div_le_self _ 2).trans_lt
    ((Nat.sub_le m 1).trans_lt (lt_two_pow_bitlen m))), el_one, one_mul, el_fbSqrP h1 h2,
    show 2 * ((m - 1) / 2) = m - 1 by omega, ← pow_mul, Nat.mul_comm, pow_mul]
  exact mul_pow_eq_one h1 h2 (el_ne_zero h1 h2 ha h0) (by omega)

include h1 h2 in
/-- table[i] = a^(2^u[i] − 1) along the chain. -/
theorem itohtLoop_spec {a : Nat} (chain : List (Nat × Nat)) : ∀ table us : List Nat,
    Build.chainOrdered chain table.length = true → table.length = us.length →
    (∀ i, i < us.length → el f (table.getD i 0) = el f a ^ (2 ^ us.getD i 0 - 1)) →
    (itohtLoop m f chain table us).length = (Build.chainExps chain us).length ∧
      ∀ i, i < (Build.chainExps chain us).length →
        el f ((itohtLoop m f chain table us).getD i 0) = el f a ^ (2 ^ (Build.chainExps chain us).getD i 0 - 1) := by
  induction chain with
  | nil => exact fun table us _ hlen hinv => ⟨hlen, hinv⟩
  | cons p rest ih =>
    obtain ⟨x, y⟩ := p
    intro table us hord hlen hinv
    simp only [Build.chainOrdered, Bool.and_eq_true, decide_eq_true_iff] at hord
    obtain ⟨⟨hyx, hx⟩, hrest⟩ := hord
    rw [itohtLoop, Build.chainExps]
    refine ih _ _ (by rwa [List.length_append]) (by simp [hlen]) fun i hi => ?_
    rw [List.length_append, List.length_singleton] at hi
    obtain hi | rfl : i < us.length ∨ i = us.length := by omega
    · rw [List.getD_append _ _ _ _ (hlen ▸ hi), List.getD_append _ _ _ _ hi, hinv i hi]
    · rw [← hlen, List.getD_append_right _ _ _ _ (Nat.le_refl _), hlen, List.getD_append_right _ _ _ _ (Nat.le_refl _),
        Nat.sub_self, List.getD_cons_zero, List.getD_cons_zero, el_fbMulP h1 h2, el_fbSqrTimes h1 h2,
        hinv x (hlen ▸ hx), hinv y (by omega), ← pow_mul, ← pow_add, two_pow_sub_one_add]

theorem getLastD_eq_getD (l : List Nat) : l.getLastD 0 = l.getD (l.length - 1) 0 := by
  rw [List.getLastD_eq_getLast?, List.getLast?_eq_getElem?, List.getD_eq_getElem?_getD]

theorem chainExps_length (chain : List (Nat × Nat)) : ∀ us : List Nat,
    (Build.chainExps chain us).length = us.length + chain.length := by
  induction chain with
  | nil => exact fun us => rfl
  | cons p rest ih =>
    intro us
    rw [Build.chainExps, ih, List.length_append, List.length_singleton, List.length_cons]
    omega

include h1 h2 hm in
theorem invItoht_spec [Fact (Irreducible (toPoly f))]
    {b : Build} (hb : b.m = m) (hchain : b.chainWf = true) {a : Nat} (ha : a < 2 ^ m)
    (h0 : a ≠ 0) : el f a * el f (invItoht m f b.chain a) = 1 := by
  simp only [Build.chainWf, Bool.and_eq_true, beq_iff_eq] at hchain
  obtain ⟨⟨⟨⟨⟨-, hord⟩, hlast⟩, -⟩, -⟩, -⟩ := hchain
  obtain ⟨hlen, hval⟩ := itohtLoop_spec h1 h2 (a := a) b.chain [a] [1] hord rfl fun i hi => by
    obtain rfl : i = 0 := by simpa using hi
    simp
  have hpos : 0 < (Build.chainExps b.chain [1]).length := by
    rw [chainExps_length]
    exact Nat.add_pos_left Nat.zero_lt_one _
  rw [getLastD_eq_getD, hb] at hlast
  rw [invItoht, el_fbSqrP h1 h2, getLastD_eq_getD, hlen, hval _ (by omega), hlast]
  exact mul_pow_eq_one h1 h2 (el_ne_zero h1 h2 ha h0) (by omega)

/-! Every variant. -/

include h1 h2 hm in
/-- Where f makes a field, each variant finds the inverse of a non-zero element (44_fb R211). -/
theorem invBy_spec [Fact (Irreducible (toPoly f))]
    {b : Build} (hb : b.m = m) (hchain : b.chainWf = true) (v : FbInv) (hv : v = .basic → m % 2 = 1)
    {a : Nat} (ha : a < 2 ^ m) (h0 : a ≠ 0) :
    ∃ x, invBy v b.chain m f a = some x ∧ x < 2 ^ m ∧ fbMulP m f a x = 1 := by
  have hdone (o : Option Nat) (ho : ∃ g, o = some g ∧ el f a * el f g = 1) :
      ∃ x, (o.map (pmod m f)).filter (fun x => fbMulP m f a x == 1) = some x ∧ x < 2 ^ m ∧ fbMulP m f a x = 1 := by
    obtain ⟨g, rfl, hg⟩ := ho
    have hone : fbMulP m f a (pmod m f g) = 1 := by
      refine el_inj h1 h2 (fbMulP_lt h1 h2 _ _) (Nat.one_lt_two_pow (by omega)) ?_
      rw [el_fbMulP h1 h2, el_pmod h1 h2, hg, el_one]
    refine ⟨pmod m f g, ?_, pmod_lt h1 h2 g, hone⟩
    rw [Option.map_some, Option.filter_some, hone]
    rfl
  unfold invBy
  cases v with
  | basic => exact hdone _ ⟨_, rfl, invBasic_spec h1 h2 hm ha h0 (hv rfl)⟩
  | binar => exact hdone _ (invBinar_spec h1 h2 hm ha h0)
  | almos => exact hdone _ (invAlmos_spec h1 h2 hm ha h0)
  | exgcd => exact hdone _ (invExgcd_spec h1 h2 hm ha h0)
  | itoht => exact hdone _ ⟨_, rfl, invItoht_spec h1 h2 hm hb hchain ha h0⟩
  | lower => exact hdone _ (invExgcd_spec h1 h2 hm ha h0)

end field

end Sys2Proof.Proofs.Inversion
end

section
/-! PROOFS. The inversion commands (44_fb R211 to R219): one register by each variant, and a range of registers by
one inversion. -/

set_option Elab.async false

namespace Sys2Proof.Proofs.InversionCommands

open Sys2Proof.Machine Sys2Proof.Laws Sys2Proof.Proofs.Context Sys2Proof.Proofs.Recoding Sys2Proof.Proofs.Frames
  Sys2Proof.Proofs.Faults Sys2Proof.Proofs.BinaryPoly Sys2Proof.Proofs.BinaryField
  Sys2Proof.Proofs.BinaryFieldCommands Sys2Proof.Proofs.Inversion

/-! One inversion (44_fb R211 to R217). -/

/-- What the inversion commands have in common: the variant, and whether the build has it. -/
theorem exec_inversion {s : State} {rd ra : Reg} {v : FbInv} {i : Instr} (hwf : s.build.wf = true)
    (hi : i = fbInvOf v rd ra ∨ i = .fbInv rd ra ∧ v = s.build.fbInv) :
    exec i s = command 0x58 (invChecks s v (decide (v ∈ s.build.fbInvSet)) s.fb[ra])
      (fun s => s.putFbOr rd (s.invFb v s.fb[ra])) s := by
  rcases hi with rfl | ⟨rfl, rfl⟩
  · cases v <;> rfl
  · rw [decide_eq_true (buildOk_of_wf hwf).fbInv]
    rfl

/-- The tests of an inversion where the variant is there and allowed: the source, then that it is not zero. -/
theorem invChecks_eq {s : State} (h : FbGood s) {v : FbInv} (hv : v ∈ s.build.fbInvSet)
    (hodd : v = .basic → s.build.m % 2 = 1) (a : Nat) :
    firstFault (invChecks s v (decide (v ∈ s.build.fbInvSet)) a) =
      if a < 2 ^ s.build.m ∧ a ≠ 0 then none else some .invalidInput := by
  have hall : invAllowed s.build v = true := by
    rw [invAllowed, Bool.or_eq_true, Bool.not_eq_true', beq_eq_false_iff_ne, beq_iff_eq]
    exact or_iff_not_imp_left.mpr fun hb => hodd (not_not.mp hb)
  simp only [invChecks, fbChecks, firstFault, needConfig, needInput, fbReady_of_good h, decide_eq_true hv, hall,
    Bool.and_self, if_true, List.map_cons, List.map_nil, List.cons_append, List.nil_append, fbCanon,
    decide_eq_true_iff, Bool.not_eq_true', beq_eq_false_iff_ne]
  by_cases ha : a < 2 ^ s.build.m <;> by_cases h0 : a = 0 <;> simp [ha, h0]

theorem invChecks_config {s : State} (h : FbGood s) {v : FbInv} {own : Bool}
    (hown : (own && invAllowed s.build v) = false)
    (a : Nat) : firstFault (invChecks s v own a) = some .noValidConfig := by
  simp only [invChecks, fbChecks, List.cons_append, firstFault, needConfig, fbReady_of_good h, hown, if_true,
    Bool.false_eq_true, if_false]

theorem invAllowed_basic_even {b : Build} (h : b.m % 2 = 0) : invAllowed b .basic = false := by
  rw [invAllowed, h]
  rfl

/-- Settles O46. -/
theorem fbInversion : Obligations.FbInversion := by
  unfold Obligations.FbInversion
  intro s rd ra v i h hi
  rw [exec_inversion h.wf hi]
  refine ⟨fun hv => command_faults ?_, fun hv heven => command_faults ?_, fun hv hodd ha hF h0 => ?_,
    fun hv hodd h0 => command_faults ?_⟩
  · exact invChecks_config h (by rw [decide_eq_false hv, Bool.false_and]) _
  · subst hv
    exact invChecks_config h (by rw [invAllowed_basic_even heven, Bool.and_false]) _
  · have hm := two_le_degree h
    have := fact_irreducible hF (by omega)
    obtain ⟨x, hx, hlt, hmul⟩ := invBy_spec (le_fbPoly h) (fbPoly_lt h) hm rfl ((buildOk_of_wf h.wf).chain h.unit) v
      hodd ha h0
    obtain ⟨t, ht, hlt', honly, hval⟩ := fb_writes_some (op := 0x58) (rd := rd)
      (w := fun s => s.putFbOr rd (s.invFb v s.fb[ra])) h
      ((invChecks_eq h hv hodd s.fb[ra]).trans (if_pos ⟨ha, h0⟩)) (congrArg _ hx) hlt
    exact ⟨t, ht, hlt', by rw [hval hF]; exact hmul, honly⟩
  · rw [invChecks_eq h hv hodd, if_neg (fun hc => hc.2 h0)]

/-! Many inversions by one (44_fb R218). -/

section range

variable {m f : Nat}

theorem simProducts_length (as : List Nat) : ∀ c, (simProducts m f as c).length = as.length := by
  induction as with
  | nil => exact fun _ => rfl
  | cons a as ih => exact fun c => by rw [simProducts, List.length_cons, ih, List.length_cons]

theorem simProducts_snoc (as : List Nat) (a : Nat) : ∀ c, simProducts m f (as ++ [a]) c =
    simProducts m f as c ++ [fbMulP m f ((simProducts m f as c).getLastD c) a] := by
  induction as with
  | nil => exact fun _ => rfl
  | cons b as ih =>
    intro c
    rw [List.cons_append, simProducts, simProducts, ih, List.cons_append, List.getLastD_cons]

/-- The last running product is the product of all. -/
theorem el_simProducts (h1 : 2 ^ m ≤ f) (h2 : f < 2 ^ (m + 1)) (as : List Nat) (c : Nat) :
    el f ((simProducts m f as c).getLastD c) = el f c * (as.map (el f)).prod := by
  induction as using List.reverseRecOn with
  | nil => exact (mul_one _).symm
  | append_singleton as a ih =>
    rw [simProducts_snoc, List.getLastD_concat, el_fbMulP h1 h2, ih, List.map_append, List.prod_append]
    simp [mul_assoc]

theorem simProducts_last_lt (h1 : 2 ^ m ≤ f) (h2 : f < 2 ^ (m + 1)) (as : List Nat) {c : Nat} (hc : c < 2 ^ m) :
    (simProducts m f as c).getLastD c < 2 ^ m := by
  induction as using List.reverseRecOn with
  | nil => exact hc
  | append_singleton as a ih =>
    rw [simProducts_snoc, List.getLastD_concat]
    exact fbMulP_lt h1 h2 _ _

theorem simProducts_getLastD {as : List Nat} (h : as ≠ []) (c d e : Nat) :
    (simProducts m f as c).getLastD d = (simProducts m f as c).getLastD e := by
  cases as with
  | nil => exact absurd rfl h
  | cons a as => rw [simProducts, List.getLastD_cons, List.getLastD_cons]

theorem simInverses_snoc {as : List Nat} (has : as ≠ []) (a t : Nat) : simInverses m f (as ++ [a]) t =
    simInverses m f as (fbMulP m f t a) ++ [fbMulP m f t ((simProducts m f as 1).getLastD 1)] := by
  have hp : simProducts m f as 1 ≠ [] := by
    rw [← List.length_pos_iff, simProducts_length]
    exact List.length_pos_iff.mpr has
  have hsplit : simProducts m f as 1 = (simProducts m f as 1).dropLast ++ [(simProducts m f as 1).getLastD 1] := by
    conv_lhs => rw [← List.dropLast_append_getLast hp]
    rw [List.getLastD_eq_getLast?, List.getLast?_eq_getLast_of_ne_nil hp]
    rfl
  have hlen : as.tail.length = (simProducts m f as 1).dropLast.length := by
    rw [List.length_tail, List.length_dropLast, simProducts_length]
  rw [simInverses, simProducts_snoc, List.dropLast_concat, List.tail_append_of_ne_nil has]
  conv_lhs => rw [hsplit]
  rw [List.zip_append hlen, List.reverse_append]
  rfl

/-- From the inverse of the product, the inverse of each factor. -/
theorem simInverses_spec (h1 : 2 ^ m ≤ f) (h2 : f < 2 ^ (m + 1)) (hm : 0 < m) (as : List Nat) : ∀ t, as ≠ [] →
    t < 2 ^ m → el f t * (as.map (el f)).prod = 1 →
    List.Forall₂ (fun a r => r < 2 ^ m ∧ fbMulP m f a r = 1) as (simInverses m f as t) := by
  have hone {a r : Nat} (h : el f a * el f r = 1) : fbMulP m f a r = 1 :=
    el_inj h1 h2 (fbMulP_lt h1 h2 a r) (Nat.one_lt_two_pow hm.ne') (by rw [el_fbMulP h1 h2, h, el_one])
  induction as using List.reverseRecOn with
  | nil => exact fun t h0 => absurd rfl h0
  | append_singleton as a ih =>
    intro t _ ht hprod
    rw [List.map_append, List.prod_append, List.map_singleton, List.prod_singleton] at hprod
    rcases eq_or_ne as [] with rfl | has
    · refine .cons ⟨ht, hone ?_⟩ .nil
      rw [mul_comm]
      simpa using hprod
    · rw [simInverses_snoc has]
      refine List.rel_append (ih _ has (fbMulP_lt h1 h2 t a) ?_) (.cons ⟨fbMulP_lt h1 h2 _ _, hone ?_⟩ .nil)
      · rw [el_fbMulP h1 h2, ← hprod]
        ring
      · rw [el_fbMulP h1 h2, el_simProducts h1 h2, el_one, one_mul, ← hprod]
        ring

end range

theorem forall₂_getD {R : Nat → Nat → Prop} {l r : List Nat} (h : List.Forall₂ R l r) :
    ∀ {i : Nat}, i < l.length → R (l.getD i 0) (r.getD i 0) := by
  induction h with
  | nil => exact fun hi => absurd hi (Nat.not_lt_zero _)
  | cons hab _ ih =>
    intro i hi
    cases i with
    | zero => exact hab
    | succ i => exact ih (Nat.lt_of_succ_lt_succ hi)

/-! A range of registers. -/

theorem frame_fb (s : State) (fb : Vector Nat 16) : Frame s (finish { s with fb := fb }) [.fb] := by
  refine frame_of_untouched ?_ (sameFile_of_ne fun f hf => ?_)
  · exact ⟨rfl, rfl, rfl, rfl, rfl, rfl, rfl, rfl⟩
  · cases f <;> first | rfl | exact absurd rfl hf

theorem putFbRange_eq (vs : List Nat) : ∀ (s : State) (rd : Reg),
    ∃ fb, s.putFbRange rd vs = { s with fb := fb } := by
  induction vs with
  | nil => exact fun s _ => ⟨s.fb, rfl⟩
  | cons v vs ih =>
    intro s rd
    obtain ⟨fb, he⟩ := ih (s.putFb rd v) (rd + 1)
    exact ⟨fb, he⟩

/-- The registers of a range that does not wrap hold the values in order; every other keeps its own. -/
theorem putFbRange_fb (vs : List Nat) : ∀ (s : State) (rd : Reg), rd.val + vs.length ≤ 16 → ∀ r : Reg,
    (s.putFbRange rd vs).fb[r] =
      if rd.val ≤ r.val ∧ r.val < rd.val + vs.length then
        digits s.build.W s.build.fbDigs (vs.getD (r.val - rd.val) 0)
      else s.fb[r] := by
  induction vs with
  | nil =>
    intro s rd _ r
    rw [if_neg (by simp only [List.length_nil]; omega)]
    rfl
  | cons v vs ih =>
    intro s rd hlen r
    have hnext : (rd + 1).val = (rd.val + 1) % 16 := Fin.val_add rd 1
    have hr16 := r.isLt
    rw [List.length_cons] at hlen ⊢
    rw [State.putFbRange, ih (s.putFb rd v) (rd + 1) (by omega) r]
    rcases eq_or_ne r rd with rfl | hne
    · rw [if_neg (by omega), if_pos (by omega), putFb_same, Nat.sub_self, List.getD_cons_zero]
    · have hval : r.val ≠ rd.val := fun he => hne (Fin.ext he)
      by_cases hin : rd.val ≤ r.val ∧ r.val < rd.val + (vs.length + 1)
      · rw [if_pos (by omega), if_pos hin, show r.val - rd.val = r.val - (rd + 1).val + 1 by omega,
          List.getD_cons_succ]
        rfl
      · rw [if_neg (by omega), if_neg hin, putFb_other _ _ _ _ hne]

/-- Register j of the range that begins at `ra` and does not wrap. -/
theorem val_add_of_range {ra : Reg} {cnt j : Nib} (hra : ra.val + cnt.val ≤ 15) (hj : j ≤ cnt) :
    (ra + j).val = ra.val + j.val := by
  have hj : j.val ≤ cnt.val := hj
  rw [Fin.val_add, Nat.mod_eq_of_lt (by omega)]

theorem fbRange_length (s : State) (ra : Reg) (n : Nat) : (s.fbRange ra n).length = n := by
  rw [State.fbRange, List.length_map, List.length_range]

theorem fbRange_getD (s : State) (ra : Reg) {n i : Nat} (hi : i < n) :
    (s.fbRange ra n).getD i 0 = s.fb[ra + Fin.ofNat 16 i] := by
  rw [State.fbRange, List.getD_eq_getElem?_getD, List.getElem?_map, List.getElem?_range hi]
  rfl

theorem mem_fbRange {s : State} {ra : Reg} {cnt : Nib} {a : Nat} :
    a ∈ s.fbRange ra (cnt.val + 1) ↔ ∃ j : Nib, j ≤ cnt ∧ s.fb[ra + j] = a := by
  rw [State.fbRange, List.mem_map]
  constructor
  · rintro ⟨i, hi, rfl⟩
    have hi : i < cnt.val + 1 := List.mem_range.mp hi
    have := cnt.isLt
    refine ⟨Fin.ofNat 16 i, ?_, rfl⟩
    show i % 16 ≤ cnt.val
    rw [Nat.mod_eq_of_lt (by omega)]
    omega
  · rintro ⟨j, hj, rfl⟩
    exact ⟨j.val, List.mem_range.mpr (Nat.lt_succ_of_le hj),
      congrArg (fun x : Reg => s.fb[ra + x]) (Fin.ofNat_val_eq_self j)⟩

/-- The tests of `FB.INV.SIM` with ranges inside the file, in a configuration that allows it. -/
theorem simChecks_eq {s : State} (h : FbGood s) {rd ra : Reg} {cnt : Nib} (hra : ra.val + cnt.val ≤ 15)
    (hrd : rd.val + cnt.val ≤ 15) (hall : invAllowed s.build s.build.fbInv = true)
    (hlt : ∀ j : Nib, j ≤ cnt → s.fb[ra + j] < 2 ^ s.build.m) :
    firstFault (needInput (simRange rd ra cnt) ::
      (fbChecks s (invAllowed s.build s.build.fbInv) (s.fbRange ra (cnt.val + 1)) ++
        (s.fbRange ra (cnt.val + 1)).map fun a => needInput (!(a == 0)))) =
      firstFault ((s.fbRange ra (cnt.val + 1)).map fun a => needInput (!(a == 0))) := by
  have hrange : simRange rd ra cnt = true := decide_eq_true ⟨hra, hrd⟩
  have hpass : firstFault (fbChecks s true (s.fbRange ra (cnt.val + 1))) = none := by
    refine fbChecks_pass h fun a ha => ?_
    obtain ⟨j, hj, rfl⟩ := mem_fbRange.mp ha
    exact hlt j hj
  rw [firstFault, hrange, needInput, if_pos rfl, hall, firstFault_append_of_pass hpass]

/-- In a field the one inversion succeeds, and gives the inverse of every source. -/
theorem simInverses_of_field {s : State} [Fact (Irreducible (toPoly (fbPoly s)))] (h : FbGood s)
    (hodd : s.build.fbInv = .basic → s.build.m % 2 = 1) {as : List Nat} (hne : as ≠ [])
    (has : ∀ a ∈ as, a < 2 ^ s.build.m ∧ a ≠ 0) :
    ∃ t, s.invFb s.build.fbInv ((simProducts s.build.m (fbPoly s) as 1).getLastD 0) = some t ∧
      List.Forall₂ (fun a r => r < 2 ^ s.build.m ∧ s.mulFb a r = 1) as
        (simInverses s.build.m (fbPoly s) as t) := by
  have hm := two_le_degree h
  have h1 := le_fbPoly h
  have h2 := fbPoly_lt h
  have hlast := el_simProducts h1 h2 as 1
  have hlt := simProducts_last_lt h1 h2 as (Nat.one_lt_two_pow (by omega))
  rw [simProducts_getLastD hne 1 0 1]
  rw [el_one, one_mul] at hlast
  generalize (simProducts s.build.m (fbPoly s) as 1).getLastD 1 = c at hlast hlt
  have hprod : (as.map (el (fbPoly s))).prod ≠ 0 := by
    refine List.prod_ne_zero fun hmem => ?_
    obtain ⟨a, ha, h0⟩ := List.mem_map.mp hmem
    exact el_ne_zero h1 h2 (has a ha).1 (has a ha).2 h0
  have hc0 : c ≠ 0 := by
    rintro rfl
    exact hprod (hlast.symm.trans (el_zero _))
  obtain ⟨t, ht, htlt, hmul⟩ := invBy_spec h1 h2 hm rfl ((buildOk_of_wf h.wf).chain h.unit) s.build.fbInv
    hodd hlt hc0
  refine ⟨t, ht, simInverses_spec h1 h2 (by omega) as t hne htlt ?_⟩
  rw [← hlast, mul_comm, ← el_fbMulP h1 h2, hmul, el_one]

/-- Settles O47. -/
theorem fbSimultaneousInversion : Obligations.FbSimultaneousInversion := by
  unfold Obligations.FbSimultaneousInversion
  intro s rd ra cnt h hra hrd
  dsimp only [exec]
  have hallowed (hodd : s.build.fbInv = .basic → s.build.m % 2 = 1) : invAllowed s.build s.build.fbInv = true := by
    rw [invAllowed, Bool.or_eq_true, Bool.not_eq_true', beq_eq_false_iff_ne, beq_iff_eq]
    exact or_iff_not_imp_left.mpr fun hb => hodd (not_not.mp hb)
  refine ⟨fun hodd hlt => ⟨fun hF h0 => ?_, fun ⟨j, hj, h0⟩ => command_faults ?_⟩,
    fun hb heven => command_faults ?_⟩
  · have hm := two_le_degree h
    have := fact_irreducible hF (by omega)
    have hne : s.fbRange ra (cnt.val + 1) ≠ [] := by
      rw [← List.length_pos_iff, fbRange_length]
      omega
    have hsrc (a : Nat) (ha : a ∈ s.fbRange ra (cnt.val + 1)) : a < 2 ^ s.build.m ∧ a ≠ 0 := by
      obtain ⟨j, hj, rfl⟩ := mem_fbRange.mp ha
      exact ⟨hlt j hj, h0 j hj⟩
    have hpass := (simChecks_eq h hra hrd (hallowed hodd) hlt).trans ((firstFault_eq_none _).mpr
      (List.forall_mem_map.mpr fun a ha => by rw [needInput, beq_eq_false_iff_ne.mpr (hsrc a ha).2]; rfl))
    obtain ⟨x, hx, hspec⟩ := simInverses_of_field h hodd hne hsrc
    obtain ⟨fb, hfb⟩ := putFbRange_eq (simInverses s.build.m (fbPoly s) (s.fbRange ra (cnt.val + 1)) x) s rd
    have hlen := hspec.length_eq
    rw [fbRange_length] at hlen
    refine ⟨finish (s.putFbRange rd (simInverses s.build.m (fbPoly s) (s.fbRange ra (cnt.val + 1)) x)), ?_, ?_, ?_,
      fun j hj => ?_, fun r hr => ?_⟩
    · rw [execFbInvSim, command_completes hpass]
      dsimp only
      rw [hx, fbTrue_of_fieldPoly hF]
      rfl
    · rw [hfb]
      exact frame_fb s fb
    · rw [hfb]
      rfl
    · have hj' : j.val ≤ cnt.val := hj
      have hval := val_add_of_range hrd hj
      have hres := forall₂_getD hspec (i := j.val) (by rw [fbRange_length]; omega)
      rw [fbRange_getD s ra (by omega)] at hres
      rw [finish_fb, putFbRange_fb _ s rd (by omega), if_pos (by omega), hval, Nat.add_sub_cancel_left,
        digits_fb h hres.1]
      refine ⟨hres.1, ?_⟩
      have hj : s.fb[ra + Fin.ofNat 16 j.val] = s.fb[ra + j] :=
        congrArg (fun x : Reg => s.fb[ra + x]) (Fin.ofNat_val_eq_self j)
      rw [← hj]
      exact hres.2
    · rw [finish_fb, putFbRange_fb _ s rd (by omega), if_neg]
      rintro ⟨hle, hlt⟩
      refine hr (r - rd) ?_ (by rw [add_sub_cancel])
      show (r - rd).val ≤ cnt.val
      rw [Fin.sub_val_of_le hle]
      omega
  · rw [simChecks_eq h hra hrd (hallowed hodd) hlt]
    refine (firstFault_of_kind (k := .invalidInput) (List.forall_mem_map.mpr fun _ _ => rfl)).resolve_left
      fun hnone => ?_
    have := List.forall_mem_map.mp ((firstFault_eq_none _).mp hnone) _ (mem_fbRange.mpr ⟨j, hj, h0⟩)
    exact absurd this (by simp [needInput])
  · have hrange : simRange rd ra cnt = true := decide_eq_true ⟨hra, hrd⟩
    rw [hb, invAllowed_basic_even heven]
    simp only [firstFault, hrange, needInput, needConfig, if_true, fbChecks, List.cons_append, fbReady_of_good h,
      Bool.false_eq_true, if_false]

end Sys2Proof.Proofs.InversionCommands
end

section
/-! PROOFS. What a command writes is canonical (10_state R32 to R35), in a true context and in a false one: the
point operations stay among points with canonical coordinates, and each write keeps a canonical file so. -/

set_option Elab.async false

namespace Sys2Proof.Proofs.Canonicity

open Sys2Proof.Machine Sys2Proof.Laws Sys2Proof.Proofs.Context Sys2Proof.Proofs.Recoding Sys2Proof.Proofs.Step
  Sys2Proof.Proofs.Integers Sys2Proof.Proofs.Loops Sys2Proof.Proofs.Residues
  Sys2Proof.Proofs.PrimeFieldCommands Sys2Proof.Proofs.SquareRoot Sys2Proof.Proofs.BinaryPoly
  Sys2Proof.Proofs.BinaryField Sys2Proof.Proofs.BinaryFieldCommands Sys2Proof.Proofs.Trace

/-! Points with coordinates below a bound. -/

/-- The coordinates, if the point has any, lie below q. -/
def Below (q : Nat) : Pt → Prop
  | .aff x y => x < q ∧ y < q
  | _ => True

/-- Operations that say nothing: what is related to them is closed. -/
def unitOps : PtOps Unit := ⟨(), id, fun _ _ => (), id⟩

/-- A set of points is closed under the operations. -/
def Closed (o : PtOps Pt) (C : Pt → Prop) : Prop := OpsRel (fun P (_ : Unit) => C P) o unitOps

section prime

variable {p : Nat} (hp : 0 < p)
include hp

theorem epChord_below (lam : Nat) {x1 y1 x2 : Nat} (h1 : x1 < p) (h2 : y1 < p) (h3 : x2 < p) :
    Below p (epChord p lam x1 y1 x2) :=
  ⟨subMod_lt (subMod_lt (Nat.mod_lt _ hp) h1) h3, subMod_lt (Nat.mod_lt _ hp) h2⟩

theorem epDblPt_below (a : Nat) {P : Pt} (h : Below p P) : Below p (epDblPt p a P) := by
  cases P with
  | inf | unknown => trivial
  | aff x y =>
    rw [epDblPt]
    split
    · trivial
    · split
      · exact epChord_below hp _ h.1 h.2 h.1
      · trivial

theorem epAddPt_below (a : Nat) {P Q : Pt} (hP : Below p P) (hQ : Below p Q) : Below p (epAddPt p a P Q) := by
  cases P with
  | inf => exact hQ
  | unknown => cases Q <;> trivial
  | aff x1 y1 =>
    cases Q with
    | inf => exact hP
    | unknown => trivial
    | aff x2 y2 =>
      rw [epAddPt]
      split
      · split
        · exact epDblPt_below hp a hP
        · trivial
      · split
        · exact epChord_below hp _ hP.1 hP.2 hQ.1
        · trivial

theorem epOps_closed (a : Nat) : Closed (epOps p a) (Below p) where
  zero := trivial
  neg := by
    intro P _ h
    cases P with
    | inf | unknown => trivial
    | aff x y => exact ⟨h.1, negMod_lt h.2⟩
  add := fun h k => epAddPt_below hp a h k
  dbl := fun h => epDblPt_below hp a h

theorem epPoint_below (b : Build) (e : PointReg) : Below p (epPoint b p e) := by
  unfold epPoint
  split
  · trivial
  · split
    · exact ⟨Nat.mod_lt _ hp, Nat.mod_lt _ hp⟩
    · trivial

end prime

section loops

variable {o : PtOps Pt} {C : Pt → Prop} (h : Closed o C)
include h

theorem epMulBy_closed (hzero : C .inf) (v : EpMul) (w k : Nat) {P : Pt} (hP : C P) : C (epMulBy v o w k P) := by
  unfold epMulBy
  split
  · exact hzero
  · cases v with
    | basic => exact OpsRel.mulBasic h k (Q := ()) hP
    | lwnaf => exact OpsRel.mulLwnaf h w k (Q := ()) hP
    | rwnaf => exact OpsRel.mulRwnaf h w k (Q := ()) hP

theorem mulSigned_closed {mul : Nat → Pt → Pt} (hmul : ∀ k {P}, C P → C (mul k P)) (k : Int) {P : Pt} (hP : C P) :
    C (mulSigned o mul k P) :=
  OpsRel.mulSigned h (mul' := fun _ _ => ()) (fun k {_ _} hP => hmul k hP) k (Q := ()) hP

theorem simSigned_closed {sim : Nat → Pt → Nat → Pt → Pt} (hsim : ∀ k l {P Q}, C P → C Q → C (sim k P l Q))
    (k l : Int) {P Q : Pt} (hP : C P) (hQ : C Q) : C (simSigned o sim k P l Q) :=
  OpsRel.simSigned h (sim' := fun _ _ _ _ => ()) (fun k l {_ _ _ _} hP hQ => hsim k l hP hQ) k l (Q := ())
    (Q' := ()) hP hQ

theorem simTrick_closed (w : Nat) (k l : Int) {P Q : Pt} (hP : C P) (hQ : C Q) :
    C (simSigned o (simTrick o w) k P l Q) :=
  simSigned_closed h (fun k l {_ _} hP hQ => OpsRel.simTrick h w k l (Q := ()) (Q' := ()) hP hQ) k l hP hQ

theorem simInter_closed (w : Nat) (k l : Int) {P Q : Pt} (hP : C P) (hQ : C Q) :
    C (simSigned o (simInter o w) k P l Q) :=
  simSigned_closed h (fun k l {_ _} hP hQ => OpsRel.simInter h w k l (Q := ()) (Q' := ()) hP hQ) k l hP hQ

theorem simJoint_closed (k l : Int) {P Q : Pt} (hP : C P) (hQ : C Q) : C (simSigned o (simJoint o) k P l Q) :=
  simSigned_closed h (fun k l {_ _} hP hQ => OpsRel.simJoint h k l (Q := ()) (Q' := ()) hP hQ) k l hP hQ

theorem epSimBy_closed (hzero : C .inf) (v : SimMethod) (mul : EpMul) (w wt : Nat) (k l : Int) {P Q : Pt} (hP : C P)
    (hQ : C Q) : C (epSimBy v mul o w wt k P l Q) := by
  cases v with
  | basic =>
    have hmul (k : Int) {P : Pt} (hP : C P) := mulSigned_closed h (epMulBy_closed h hzero mul w) k hP
    exact OpsRel.add h (Q := ()) (Q' := ()) (hmul k hP) (hmul l hQ)
  | trick => exact simTrick_closed h wt k l hP hQ
  | inter => exact simInter_closed h w k l hP hQ
  | joint => exact simJoint_closed h k l hP hQ

end loops

section binary

variable {m f : Nat} (h1 : 2 ^ m ≤ f) (h2 : f < 2 ^ (m + 1))
include h1 h2

theorem invBy_lt {v : FbInv} {chain : List (Nat × Nat)} {a x : Nat} (h : invBy v chain m f a = some x) : x < 2 ^ m := by
  obtain ⟨hx, -⟩ := Option.filter_eq_some_iff.mp h
  obtain ⟨y, -, rfl⟩ := Option.map_eq_some_iff.mp hx
  exact pmod_lt h1 h2 y

theorem sqr_lt (a : Nat) : fbSqrP m f a < 2 ^ m := fbMulP_lt h1 h2 a a

theorem ebDblPt_below {a : Nat} (ha : a < 2 ^ m) {P : Pt} (h : Below (2 ^ m) P) : Below (2 ^ m) (ebDblPt m f a P) := by
  cases P with
  | inf | unknown => trivial
  | aff x y =>
    rw [ebDblPt]
    split
    · trivial
    · split
      · exact ⟨Nat.xor_lt_two_pow (Nat.xor_lt_two_pow (sqr_lt h1 h2 _) (Nat.xor_lt_two_pow h.1 (fbMulP_lt h1 h2 _ _)))
          ha, Nat.xor_lt_two_pow (sqr_lt h1 h2 _) (fbMulP_lt h1 h2 _ _)⟩
      · trivial

theorem ebAddPt_below {a : Nat} (ha : a < 2 ^ m) {P Q : Pt} (hP : Below (2 ^ m) P) (hQ : Below (2 ^ m) Q) :
    Below (2 ^ m) (ebAddPt m f a P Q) := by
  cases P with
  | inf => exact hQ
  | unknown => cases Q <;> trivial
  | aff x1 y1 =>
    cases Q with
    | inf => exact hP
    | unknown => trivial
    | aff x2 y2 =>
      rw [ebAddPt]
      split
      · split
        · exact ebDblPt_below h1 h2 ha hP
        · trivial
      · split
        · rename_i di _
          have hx : fbSqrP m f (fbMulP m f (y1 ^^^ y2) di) ^^^ fbMulP m f (y1 ^^^ y2) di ^^^ x1 ^^^ x2 ^^^ a < 2 ^ m :=
            Nat.xor_lt_two_pow (Nat.xor_lt_two_pow (Nat.xor_lt_two_pow (Nat.xor_lt_two_pow (sqr_lt h1 h2 _)
              (fbMulP_lt h1 h2 _ _)) hP.1) hQ.1) ha
          exact ⟨hx, Nat.xor_lt_two_pow (Nat.xor_lt_two_pow (fbMulP_lt h1 h2 _ _) hx) hP.2⟩
        · trivial

omit h1 h2 in
theorem ebNegPt_below {P : Pt} (h : Below (2 ^ m) P) : Below (2 ^ m) (ebNegPt P) := by
  cases P with
  | inf | unknown => trivial
  | aff x y => exact ⟨h.1, Nat.xor_lt_two_pow h.1 h.2⟩

theorem ebOps_closed {a : Nat} (ha : a < 2 ^ m) : Closed (ebOps m f a) (Below (2 ^ m)) where
  zero := trivial
  neg := fun h => ebNegPt_below h
  add := fun h k => ebAddPt_below h1 h2 ha h k
  dbl := fun h => ebDblPt_below h1 h2 ha h

theorem ebPoint_below (e : PointReg) : Below (2 ^ m) (ebPoint m f e) := by
  unfold ebPoint
  split
  · trivial
  · split
    · exact ⟨fbMulP_lt h1 h2 _ _, fbMulP_lt h1 h2 _ _⟩
    · trivial

theorem ladderEnd_below {x y : Nat} (hx : x < 2 ^ m) (hy : y < 2 ^ m) (A B : Nat × Nat) :
    Below (2 ^ m) (ladderEnd m f x y A B) := by
  unfold ladderEnd
  split
  · trivial
  · split
    · exact ⟨hx, Nat.xor_lt_two_pow hx hy⟩
    · split
      · exact ⟨fbMulP_lt h1 h2 _ _, Nat.xor_lt_two_pow (fbMulP_lt h1 h2 _ _) hy⟩
      · trivial

theorem mulLodah_below {a : Nat} (ha : a < 2 ^ m) (b : Nat) (k : Int) {P : Pt} (h : Below (2 ^ m) P) :
    Below (2 ^ m) (mulLodah m f a b k P) := by
  cases P with
  | inf | unknown => trivial
  | aff x y =>
    have hops := ebOps_closed h1 h2 ha
    rw [mulLodah]
    split
    · exact mulSigned_closed hops (fun k {_} hP => OpsRel.mulBasic hops k (Q := ()) hP) k h
    · exact ladderEnd_below h1 h2 h.1 h.2 _ _

end binary

/-! The multiplications of the context's binary curve. -/

section context

variable {s : State} (hg : FbGood s)
include hg

theorem ebOps_below : Closed s.ebOps (Below (2 ^ s.build.m)) :=
  ebOps_closed (le_fbPoly hg) (fbPoly_lt hg) (fbStaged_of_good hg).curve.1

theorem ebMulBy_below (v : EbMul) (k : Int) {P R : Pt} (hP : Below (2 ^ s.build.m) P) (hR : ebMulBy s v k P = some R) :
    Below (2 ^ s.build.m) R := by
  have hops := ebOps_below hg
  have hbasic (k : Nat) {P : Pt} (hP : Below (2 ^ s.build.m) P) : Below (2 ^ s.build.m) (mulBasic s.ebOps k P) :=
    OpsRel.mulBasic hops k (Q := ()) hP
  unfold ebMulBy at hR
  dsimp only at hR
  split at hR
  · exact Option.some.inj hR ▸ trivial
  split at hR
  · split at hR
    · exact Option.some.inj hR ▸ mulSigned_closed hops hbasic k hP
    · cases hR
  cases v with
  | basic => exact Option.some.inj hR ▸ mulSigned_closed hops hbasic k hP
  | lwnaf =>
    exact Option.some.inj hR ▸ mulSigned_closed hops (fun k {_} hP => OpsRel.mulLwnaf hops _ k (Q := ()) hP) k hP
  | rwnaf =>
    exact Option.some.inj hR ▸ mulSigned_closed hops (fun k {_} hP => OpsRel.mulRwnaf hops _ k (Q := ()) hP) k hP
  | lodah =>
    exact Option.some.inj hR ▸ mulLodah_below (le_fbPoly hg) (fbPoly_lt hg) (fbStaged_of_good hg).curve.1 _ k hP
  | halve =>
    obtain ⟨r, -, rfl⟩ := Option.map_eq_some_iff.mp hR
    exact OpsRel.mulHalve hops (half' := id) (fun h => hbasic _ h) _ k (Q := ()) hP

theorem ebSimBy_below (v : SimMethod) (k l : Int) {P Q R : Pt} (hP : Below (2 ^ s.build.m) P)
    (hQ : Below (2 ^ s.build.m) Q) (hR : ebSimBy s v k P l Q = some R) : Below (2 ^ s.build.m) R := by
  have hops := ebOps_below hg
  have hsum (w : EbMul) (h : (match ebMulBy s w k P, ebMulBy s w l Q with
      | some A, some B => some (s.ebOps.add A B)
      | _, _ => none) = some R) : Below (2 ^ s.build.m) R := by
    split at h
    · rename_i A B hA hB
      exact Option.some.inj h ▸ OpsRel.add hops (Q := ()) (Q' := ()) (ebMulBy_below hg w k hP hA)
        (ebMulBy_below hg w l hQ hB)
    · cases h
  cases v with
  | basic => exact hsum _ hR
  | trick => exact Option.some.inj hR ▸ simTrick_closed hops _ k l hP hQ
  | inter =>
    unfold ebSimBy at hR
    dsimp only at hR
    split at hR
    · exact hsum _ hR
    · exact Option.some.inj hR ▸ simInter_closed hops _ k l hP hQ
  | joint => exact Option.some.inj hR ▸ simJoint_closed hops k l hP hQ

end context

end Sys2Proof.Proofs.Canonicity
end

section
/-! PROOFS. The invariant of the commands (10_state R32 to R35, 70_reset R365, R368): every write of a command in a
locked context keeps each register file canonical. -/

set_option Elab.async false

namespace Sys2Proof.Proofs.CanonicalCommands

open Sys2Proof.Machine Sys2Proof.Laws Sys2Proof.Proofs.Context Sys2Proof.Proofs.Recoding Sys2Proof.Proofs.Step
  Sys2Proof.Proofs.Integers Sys2Proof.Proofs.Loops Sys2Proof.Proofs.Residues Sys2Proof.Proofs.Faults
  Sys2Proof.Proofs.PrimeFieldCommands Sys2Proof.Proofs.SquareRoot Sys2Proof.Proofs.BinaryPoly
  Sys2Proof.Proofs.BinaryField Sys2Proof.Proofs.BinaryFieldCommands Sys2Proof.Proofs.Trace
  Sys2Proof.Proofs.InversionCommands Sys2Proof.Proofs.Canonicity

/-! Canonical point registers. -/

/-- A canonical `EP` value (10_state R35). -/
def EpOk (s : State) (e : PointReg) : Prop :=
  e.x < s.ctx.fpP ∧ e.y < s.ctx.fpP ∧ e.z < s.ctx.fpP ∧ (e.norm = true → e.z = s.ctx.fpOne)

/-- A canonical `EB` value (10_state R35). -/
def EbOk (s : State) (e : PointReg) : Prop :=
  e.x < 2 ^ s.build.m ∧ e.y < 2 ^ s.build.m ∧ e.z < 2 ^ s.build.m ∧ (e.norm = true → e.z = 1)

/-- `ONE_FP` is a residue (10_state R46). -/
theorem fpOne_lt {s : State} (hg : FpGood s) : s.ctx.fpOne < s.ctx.fpP := by
  rw [(derived_of_good hg).one]
  split
  · exact Nat.mod_lt _ (fpP_pos hg)
  · have := three_le_fpP hg
    omega

section prime

variable {s : State} (hg : FpGood s)
include hg

theorem epOk_infinity : EpOk s PointReg.infinity := ⟨fpP_pos hg, fpP_pos hg, fpP_pos hg, nofun⟩

theorem epOk_normal {P : Pt} (hP : Below s.ctx.fpP P) {e : PointReg} (he : s.epNormal P = some e) : EpOk s e := by
  cases P with
  | inf => exact Option.some.inj he ▸ epOk_infinity hg
  | unknown => cases he
  | aff x y =>
    exact Option.some.inj he ▸ ⟨repFp_lt (fpP_pos hg) hP.1, repFp_lt (fpP_pos hg) hP.2, fpOne_lt hg, fun _ => rfl⟩

theorem epOk_some {P : Pt} (hP : Below s.ctx.fpP P) {e : PointReg} (he : s.epSome P = some e) : EpOk s e := by
  have hp := fpP_pos hg
  have hlam : 1 + s.draw 0 % (s.ctx.fpP - 1) < s.ctx.fpP := by
    have := three_le_fpP hg
    have := Nat.mod_lt (s.draw 0) (show 0 < s.ctx.fpP - 1 by omega)
    omega
  unfold State.epSome at he
  cases P with
  | inf => exact Option.some.inj he ▸ epOk_infinity hg
  | unknown => cases he
  | aff x y =>
    rw [epRepresentative] at he
    split at he
    · exact Option.some.inj he ▸ ⟨repFp_lt hp hP.1, repFp_lt hp hP.2, fpOne_lt hg, fun _ => rfl⟩
    · exact Option.some.inj he ▸ ⟨repFp_lt hp (Nat.mod_lt _ hp), repFp_lt hp (Nat.mod_lt _ hp),
        repFp_lt hp hlam, nofun⟩

theorem epOk_neg {e : PointReg} (he : EpOk s e) : EpOk s (epNegReg s.ctx.fpP e) := by
  unfold epNegReg
  split
  · exact epOk_infinity hg
  · exact ⟨he.1, negMod_lt he.2.1, he.2.2⟩

theorem epOps_below : Closed s.epOps (Below s.ctx.fpP) := epOps_closed (fpP_pos hg) _

theorem epPt_below (e : PointReg) : Below s.ctx.fpP (s.epPt e) := epPoint_below (fpP_pos hg) _ e

theorem epOk_normReg {e x : PointReg} (he : EpOk s e) (hx : s.epNormReg e = some x) : EpOk s x := by
  unfold State.epNormReg at hx
  split at hx
  · exact Option.some.inj hx ▸ epOk_infinity hg
  · split at hx
    · exact Option.some.inj hx ▸ he
    · exact epOk_normal hg (epPt_below hg e) hx

theorem epOk_mul (v : EpMul) (k : Int) {e x : PointReg} (hx : s.epMulReg v k e = some x) : EpOk s x :=
  epOk_normal hg (mulSigned_closed (epOps_below hg) (fun k {_} hP => epMulBy_closed (epOps_below hg) trivial v _ k hP) k
    (epPt_below hg e)) hx

theorem epOk_sim (v : SimMethod) (k l : Int) {e f x : PointReg} (hx : s.epSimReg v k e l f = some x) : EpOk s x :=
  epOk_normal hg (epSimBy_closed (epOps_below hg) trivial v _ _ _ k l (epPt_below hg e) (epPt_below hg f)) hx

theorem epOk_free : EpOk s (freeEp s) := by
  have hp := fpP_pos hg
  refine ⟨Nat.mod_lt _ hp, Nat.mod_lt _ hp, ?_, fun h => if_pos h⟩
  unfold freeEp
  dsimp only
  split
  · exact fpOne_lt hg
  · exact Nat.mod_lt _ hp

end prime

section binary

variable {s : State} (hg : FbGood s)
include hg

theorem one_lt_degree : 1 < 2 ^ s.build.m := Nat.one_lt_two_pow (by have := two_le_degree hg; omega)

omit hg in
theorem ebOk_infinity : EbOk s PointReg.infinity := ⟨Nat.two_pow_pos _, Nat.two_pow_pos _, Nat.two_pow_pos _, nofun⟩

theorem ebOk_normal {P : Pt} (hP : Below (2 ^ s.build.m) P) {e : PointReg} (he : ebNormal P = some e) : EbOk s e := by
  cases P with
  | inf => exact Option.some.inj he ▸ ebOk_infinity
  | unknown => cases he
  | aff x y => exact Option.some.inj he ▸ ⟨hP.1, hP.2, one_lt_degree hg, fun _ => rfl⟩

theorem ebOk_bind {o : Option Pt} (ho : ∀ P, o = some P → Below (2 ^ s.build.m) P) {e : PointReg}
    (he : o.bind ebNormal = some e) : EbOk s e := by
  obtain ⟨P, hP, he⟩ := Option.bind_eq_some_iff.mp he
  exact ebOk_normal hg (ho P hP) he

theorem ebOk_some {P : Pt} (hP : Below (2 ^ s.build.m) P) {e : PointReg} (he : s.ebSome P = some e) : EbOk s e := by
  have hone := one_lt_degree hg
  have hlam : 1 + s.draw 0 % (2 ^ s.build.m - 1) < 2 ^ s.build.m := by
    have := Nat.mod_lt (s.draw 0) (show 0 < 2 ^ s.build.m - 1 by omega)
    omega
  unfold State.ebSome at he
  cases P with
  | inf => exact Option.some.inj he ▸ ebOk_infinity
  | unknown => cases he
  | aff x y =>
    rw [ebRepresentative] at he
    split at he
    · exact Option.some.inj he ▸ ⟨hP.1, hP.2, hone, fun _ => rfl⟩
    · exact Option.some.inj he ▸ ⟨mulFb_lt hg _ _, mulFb_lt hg _ _, hlam, nofun⟩

theorem ebOk_neg {e : PointReg} (he : EbOk s e) : EbOk s (ebNegReg s.build.m (fbPoly s) e) := by
  unfold ebNegReg
  split
  · exact ebOk_infinity
  · exact ⟨he.1, Nat.xor_lt_two_pow he.2.1 (mulFb_lt hg _ _), he.2.2⟩

/-- The square of 1 is 1, in any context. -/
theorem sqr_one : fbSqrP s.build.m (fbPoly s) 1 = 1 :=
  el_inj (le_fbPoly hg) (fbPoly_lt hg) (mulFb_lt hg 1 1) (one_lt_degree hg) (by
    rw [el_fbSqrP (le_fbPoly hg) (fbPoly_lt hg), el_one, one_pow])

theorem ebOk_frb {e : PointReg} (he : EbOk s e) : EbOk s (ebFrbReg s.build.m (fbPoly s) e) := by
  unfold ebFrbReg
  split
  · exact ebOk_infinity
  · refine ⟨mulFb_lt hg _ _, mulFb_lt hg _ _, mulFb_lt hg _ _, fun hn => ?_⟩
    show fbSqrP _ _ e.z = 1
    rw [he.2.2.2 hn, sqr_one hg]

theorem ebPt_below (e : PointReg) : Below (2 ^ s.build.m) (s.ebPt e) :=
  ebPoint_below (le_fbPoly hg) (fbPoly_lt hg) e

theorem ebOk_normReg {e x : PointReg} (he : EbOk s e) (hx : s.ebNormReg e = some x) : EbOk s x := by
  unfold State.ebNormReg at hx
  split at hx
  · exact Option.some.inj hx ▸ ebOk_infinity
  · split at hx
    · exact Option.some.inj hx ▸ he
    · exact ebOk_normal hg (ebPt_below hg e) hx

theorem ebOk_half {e x : PointReg} (hx : s.ebHalfReg e = some x) : EbOk s x := by
  refine ebOk_bind hg (fun P hP => ?_) hx
  obtain ⟨r, -, rfl⟩ := Option.map_eq_some_iff.mp hP
  exact OpsRel.mulBasic (ebOps_below hg) _ (Q := ()) (ebPt_below hg e)

theorem ebOk_mul (v : EbMul) (k : Int) {e x : PointReg} (hx : s.ebMulReg v k e = some x) : EbOk s x :=
  ebOk_bind hg (fun _ hP => ebMulBy_below hg v k (ebPt_below hg e) hP) hx

theorem ebOk_sim (v : SimMethod) (k l : Int) {e f x : PointReg} (hx : s.ebSimReg v k e l f = some x) : EbOk s x :=
  ebOk_bind hg (fun _ hP => ebSimBy_below hg v k l (ebPt_below hg e) (ebPt_below hg f) hP) hx

theorem ebOk_free : EbOk s (freeEb s) := by
  have hq := Nat.two_pow_pos s.build.m
  refine ⟨Nat.mod_lt _ hq, Nat.mod_lt _ hq, ?_, fun h => if_pos h⟩
  unfold freeEb
  dsimp only
  split
  · exact one_lt_degree hg
  · exact Nat.mod_lt _ hq

end binary

/-! The writes, one by one. -/

section writes

variable {s t : State} (h : Canonical t)
include h

theorem canonical_congr {u : State} (hn : u.n = t.n) (hfp : u.fp = t.fp) (hfb : u.fb = t.fb) (hep : u.ep = t.ep)
    (heb : u.eb = t.eb) (hctx : u.ctx = t.ctx) (hbuild : u.build = t.build) : Canonical u where
  n := hn ▸ h.n
  fp := by rw [hfp, hctx, hbuild]; exact h.fp
  ep := by rw [hep, hctx, hbuild]; exact h.ep
  fb := by rw [hfb, hbuild]; exact h.fb
  eb := by rw [heb, hbuild]; exact h.eb

theorem canonical_finish : Canonical (finish t) := canonical_congr h rfl rfl rfl rfl rfl rfl rfl

theorem canonical_takeFault (k : Kind) (op : Nat) : Canonical (takeFault k op t) :=
  canonical_congr h rfl rfl rfl rfl rfl rfl rfl

theorem canonical_drawn (k : Nat) : Canonical (t.drawn k) := canonical_congr h rfl rfl rfl rfl rfl rfl rfl

theorem canonical_putRc (rd : Reg) (ds : List Int) : Canonical (t.putRc rd ds) :=
  canonical_congr h rfl rfl rfl rfl rfl rfl rfl

theorem canonical_putDvOr (ok : Bool) (rd : Reg) (v : Nat) : Canonical (t.putDvOr ok rd v) := by
  cases ok <;> exact canonical_congr h rfl rfl rfl rfl rfl rfl rfl

theorem canonical_setCmpOr (ok : Bool) (v : CmpResult) : Canonical (t.setCmpOr ok v) := by
  cases ok <;> exact canonical_congr h rfl rfl rfl rfl rfl rfl rfl

theorem canonical_putN (rd : Reg) {x : Int} (hx : x < 0 → x.natAbs < 2 ^ (t.build.W * t.build.bnDigs)) :
    Canonical (t.putN rd x) where
  n := forall_set (P := fun r : BigReg => r ≠ ⟨true, 0⟩) rd h.n (by
    intro he
    injection he with hsign hmag
    have hneg : x < 0 := of_decide_eq_true hsign
    rw [digits_of_lt (hx hneg)] at hmag
    omega)
  fp := h.fp
  ep := h.ep
  fb := h.fb
  eb := h.eb

theorem canonical_setFp (rd : Reg) {x : Nat} (hx : t.build.hasFp = true → x < t.ctx.fpP) :
    Canonical { t with fp := t.fp.set rd x } where
  n := h.n
  fp := fun hu => forall_set (P := (· < t.ctx.fpP)) rd (h.fp hu) (hx hu)
  ep := h.ep
  fb := h.fb
  eb := h.eb

theorem canonical_setFb (rd : Reg) {x : Nat} (hx : t.build.hasFb = true → x < 2 ^ t.build.m) :
    Canonical { t with fb := t.fb.set rd x } where
  n := h.n
  fp := h.fp
  ep := h.ep
  fb := fun hu => forall_set (P := (· < 2 ^ t.build.m)) rd (h.fb hu) (hx hu)
  eb := h.eb

theorem canonical_setEp (rd : Reg) {e : PointReg} (he : t.build.hasFp = true → EpOk t e) :
    Canonical { t with ep := t.ep.set rd e } where
  n := h.n
  fp := h.fp
  ep := fun hu => forall_set (P := EpOk t) rd (h.ep hu) (he hu)
  fb := h.fb
  eb := h.eb

theorem canonical_setEb (rd : Reg) {e : PointReg} (he : t.build.hasFb = true → EbOk t e) :
    Canonical { t with eb := t.eb.set rd e } where
  n := h.n
  fp := h.fp
  ep := h.ep
  fb := h.fb
  eb := fun hu => forall_set (P := EbOk t) rd (h.eb hu) (he hu)

theorem canonical_putFp (rd : Reg) {x : Nat} (hx : x < t.ctx.fpP) : Canonical (t.putFp rd x) :=
  canonical_setFp h rd fun _ => (Nat.mod_le _ _).trans_lt hx

theorem canonical_putFb (rd : Reg) {x : Nat} (hx : x < 2 ^ t.build.m) : Canonical (t.putFb rd x) :=
  canonical_setFb h rd fun _ => (Nat.mod_le _ _).trans_lt hx

omit h in
theorem canonical_putFbRange (vs : List Nat) : ∀ {t : State} (_ : Canonical t) (rd : Reg),
    (∀ v ∈ vs, v < 2 ^ t.build.m) → Canonical (t.putFbRange rd vs) := by
  induction vs with
  | nil => exact fun h _ _ => h
  | cons v vs ih =>
    intro t h rd hvs
    exact ih (canonical_putFb h rd (hvs v List.mem_cons_self)) (rd + 1) fun w hw => hvs w (List.mem_cons_of_mem v hw)

theorem canonical_putEp (hg : FpGood t) (rd : Reg) {e : PointReg} (he : EpOk t e) : Canonical (t.putEp rd e) := by
  have hfit : e.fit t.build.W t.build.fpDigs = e := by
    rw [PointReg.fit, digits_fp hg he.1, digits_fp hg he.2.1, digits_fp hg he.2.2.1]
  refine canonical_setEp h rd fun _ => ?_
  rw [hfit]
  exact he

theorem canonical_putEb (hg : FbGood t) (rd : Reg) {e : PointReg} (he : EbOk t e) : Canonical (t.putEb rd e) := by
  have hfit : e.fit t.build.W t.build.fbDigs = e := by
    rw [PointReg.fit, digits_fb hg he.1, digits_fb hg he.2.1, digits_fb hg he.2.2.1]
  refine canonical_setEb h rd fun _ => ?_
  rw [hfit]
  exact he

theorem canonical_putFpOr (hg : FpGood t) (rd : Reg) {v : Option Nat} (hv : ∀ x, v = some x → x < t.ctx.fpP) :
    Canonical (t.putFpOr rd v) := by
  obtain ⟨x, hx, -, he⟩ | he := putFpOr_cases t rd v
  · exact he ▸ canonical_putFp h rd (hv x hx)
  · exact he ▸ canonical_drawn (canonical_putFp h rd (Nat.mod_lt _ (fpP_pos hg))) 1

theorem canonical_putFbOr (rd : Reg) {v : Option Nat} (hv : ∀ x, v = some x → x < 2 ^ t.build.m) :
    Canonical (t.putFbOr rd v) := by
  obtain ⟨x, hx, -, he⟩ | he := putFbOr_cases t rd v
  · exact he ▸ canonical_putFb h rd (hv x hx)
  · exact he ▸ canonical_drawn (canonical_putFb h rd (Nat.mod_lt _ (Nat.two_pow_pos _))) 1

theorem canonical_epResult (hg : FpGood t) (es : List PointReg) (rd : Reg) {e : Option PointReg} (k : Nat)
    (he : ∀ x, e = some x → EpOk t x) : Canonical (t.epResult es rd e k) := by
  obtain ⟨x, hx, -, -, hr⟩ | hr := epResult_cases t es rd e k
  · exact hr ▸ canonical_drawn (canonical_putEp h hg rd (he x hx)) k
  · exact hr ▸ canonical_drawn (canonical_putEp h hg rd (epOk_free hg)) 4

theorem canonical_ebResult (hg : FbGood t) (es : List PointReg) (rd : Reg) {e : Option PointReg} (k : Nat)
    (he : ∀ x, e = some x → EbOk t x) : Canonical (t.ebResult es rd e k) := by
  obtain ⟨x, hx, -, -, hr⟩ | hr := ebResult_cases t es rd e k
  · exact hr ▸ canonical_drawn (canonical_putEb h hg rd (he x hx)) k
  · exact hr ▸ canonical_drawn (canonical_putEb h hg rd (ebOk_free hg)) 4

theorem canonical_zeroReg (hfp : t.build.hasFp = true → 0 < t.ctx.fpP) (sp : Nib) (rd : Reg) :
    Canonical (t.zeroReg sp rd) := by
  unfold State.zeroReg
  split
  · exact canonical_congr h rfl rfl rfl rfl rfl rfl rfl
  · exact { h with n := forall_set (P := fun r : BigReg => r ≠ ⟨true, 0⟩) rd h.n (by decide) }
  · exact canonical_congr h rfl rfl rfl rfl rfl rfl rfl
  · exact canonical_setFp h rd hfp
  · exact canonical_setFb h rd fun _ => Nat.two_pow_pos _
  · exact canonical_setEp h rd fun hu => ⟨hfp hu, hfp hu, hfp hu, nofun⟩
  · exact canonical_setEb h rd fun _ => ebOk_infinity
  · exact h

theorem canonical_copyReg (sp : Nib) (rd ra : Reg) : Canonical (t.copyReg sp rd ra) := by
  unfold State.copyReg
  split
  · exact canonical_congr h rfl rfl rfl rfl rfl rfl rfl
  · exact { h with n := forall_set (P := fun r : BigReg => r ≠ ⟨true, 0⟩) rd h.n (h.n ra) }
  · exact canonical_congr h rfl rfl rfl rfl rfl rfl rfl
  · exact canonical_setFp h rd fun hu => h.fp hu ra
  · exact canonical_setFb h rd fun hu => h.fb hu ra
  · exact canonical_setEp h rd fun hu => h.ep hu ra
  · exact canonical_setEb h rd fun hu => h.eb hu ra
  · exact h

/-- A command keeps the registers canonical when what it writes does. -/
theorem canonical_command {op : Nat} {cs : List Check} {w : State → State} {u : State}
    (hw : (∀ c ∈ cs, c.ok = true) → Canonical (w t)) (he : command op cs w t = .next u) : Canonical u := by
  obtain ⟨hpass, rfl⟩ | ⟨k, -, rfl⟩ := command_cases he
  · exact canonical_finish (hw ((firstFault_eq_none cs).mp hpass))
  · exact canonical_takeFault h k op

end writes

/-! The families of commands. -/

theorem simBack_lt {m f : Nat} (h1 : 2 ^ m ≤ f) (h2 : f < 2 ^ (m + 1)) (ps : List (Nat × Nat)) :
    ∀ {t : Nat}, t < 2 ^ m → ∀ v ∈ simBack m f ps t, v < 2 ^ m := by
  induction ps with
  | nil => exact fun ht v hv => List.mem_singleton.mp hv ▸ ht
  | cons p ps ih =>
    intro t _ v hv
    rw [simBack, List.mem_append, List.mem_singleton] at hv
    rcases hv with hv | rfl
    · exact ih (fbMulP_lt h1 h2 _ _) v hv
    · exact fbMulP_lt h1 h2 _ _

section families

variable {s t : State} (h : Canonical s)
include h

/-- The integer commands (41_bn). -/
theorem canonical_bn (hfits : Fits s) {i : Instr} (hi : (rowCode i).1 / 16 = 2) (he : exec i s = .next t) :
    Canonical t := by
  have hbound {op : Nat} {cs : List Check} {w : State → State} {rd : Reg} {x : Int}
      (he : command op cs w s = .next t) (hw : w s = s.putN rd x)
      (hx : (∀ c ∈ cs, c.ok = true) → x < 0 → x.natAbs < 2 ^ (s.build.W * s.build.bnDigs)) : Canonical t :=
    canonical_command h (fun hpass => by rw [hw]; exact canonical_putN h rd (hx hpass)) he
  cases i
  all_goals dsimp only [exec] at he
  case bnAdd | bnSub | bnMul | bnSqr | bnLsh =>
    exact hbound he rfl fun hpass _ => needFit_iff.mp (hpass _ (List.mem_of_getLast? rfl))
  case bnMod rd ra rb =>
    refine hbound he rfl fun hpass hneg => ?_
    have h0 : (!(s.n[rb].val == 0)) = true := hpass (needInput (!(s.n[rb].val == 0))) (List.mem_of_getLast? rfl)
    rw [Bool.not_eq_true', beq_eq_false_iff_ne, Ne, val_eq_zero] at h0
    exact absurd hneg (Int.emod_nonneg _ (by exact_mod_cast h0)).not_gt
  case bnGcd rd ra rb => exact hbound he rfl fun _ hneg => absurd hneg (Int.natCast_nonneg _).not_gt
  case bnRsh rd ra imm16 =>
    refine hbound he rfl fun _ _ => ?_
    rw [Int.natAbs_tdiv, natAbs_val]
    exact (Nat.div_le_self _ _).trans_lt (hfits.n ra)
  case bnDiv rd rc ra rb =>
    refine canonical_command h (fun hpass => ?_) he
    refine canonical_putN (canonical_putN h rd fun _ => ?_) rc fun _ => ?_
    · exact needFit_iff.mp (hpass (needFit s.build (s.n[ra].val.tdiv s.n[rb].val)) (by simp))
    · exact needFit_iff.mp (hpass (needFit s.build (s.n[ra].val.tmod s.n[rb].val)) (List.mem_of_getLast? rfl))
  all_goals simp [rowCode] at hi

/-- The commands of the prime field (43_fp). -/
theorem canonical_fp (hgood : s.build.hasFp = true → FpGood s) {i : Instr} (hi : (rowCode i).1 / 16 = 4)
    (he : exec i s = .next t) : Canonical t := by
  have hup {cs : List Check} (hc : needConfig (fpReady s) ∈ cs) (hpass : ∀ c ∈ cs, c.ok = true) : FpGood s :=
    hgood ((fpReady_iff s).mp (hpass _ hc)).1
  have hput {op : Nat} {cs : List Check} {w : State → State} {rd : Reg} {v : Option Nat}
      (he : command op cs w s = .next t) (hw : w s = s.putFpOr rd v) (hready : needConfig (fpReady s) ∈ cs)
      (hv : FpGood s → (∀ c ∈ cs, c.ok = true) → ∀ x, v = some x → x < s.ctx.fpP) : Canonical t :=
    canonical_command h (fun hpass => by
      have hg := hup hready hpass
      rw [hw]
      exact canonical_putFpOr h hg rd (hv hg hpass)) he
  have hone {x : Nat} (hx : FpGood s → x < s.ctx.fpP) : FpGood s → ∀ y, some x = some y → y < s.ctx.fpP :=
    fun hg y hy => Option.some.inj hy ▸ hx hg
  have hsrc (hg : FpGood s) (r : Reg) : s.fp[r] < s.ctx.fpP := h.fp hg.unit r
  have hexp (v : FpExp) (ra rb : Reg) (hg : FpGood s) (x : Nat)
      (hx : (s.expBase s.fp[ra] s.n[rb].val).map (s.powFp v s.n[rb].mag) = some x) : x < s.ctx.fpP := by
    obtain ⟨y, hy, rfl⟩ := Option.map_eq_some_iff.mp hx
    exact (powFp_spec hg v _ (expBase_lt hg (hsrc hg ra) hy)).1
  have hrdcn {own : Bool} {w : State → State} {rd ra : Reg}
      (he : command 0x4E (rdcnChecks s own s.dv[ra]) w s = .next t) (hw : w s = s.putFpOr rd (some (s.rdcn s.dv[ra]))) :
      Canonical t := by
    refine hput he hw List.mem_cons_self fun hg hpass x hx => Option.some.inj hx ▸ (rdcn_spec hg ?_).1
    have hlast := hpass (needInput (decide (s.dv[ra] / bigR s.build < s.ctx.fpP))) (List.mem_of_getLast? rfl)
    exact div_bigR_lt_iff.mp (of_decide_eq_true hlast)
  have hrdcs {own : Bool} {w : State → State} {rd ra : Reg}
      (he : command 0x4E (rdcsChecks s own s.dv[ra]) w s = .next t) (hw : w s = s.putFpOr rd (some (s.rdcs s.dv[ra]))) :
      Canonical t := by
    refine hput he hw List.mem_cons_self fun hg hpass x hx => Option.some.inj hx ▸ ?_
    have hcnt : (!(s.ctx.sfCnt == 0)) = true :=
      hpass (needConfig (!(s.ctx.sfCnt == 0))) (List.mem_cons_of_mem _ (List.mem_cons_of_mem _ List.mem_cons_self))
    rw [Bool.not_eq_true', beq_eq_false_iff_ne] at hcnt
    rw [rdcs_eq (staged_of_good hg) hcnt]
    exact Nat.mod_lt _ (fpP_pos hg)
  cases i
  all_goals dsimp only [exec] at he
  case fpAdd rd ra rb =>
    exact hput he rfl List.mem_cons_self fun hg _ => hone (fun hg => addMod_lt (hsrc hg ra) (hsrc hg rb)) hg
  case fpSub rd ra rb =>
    exact hput he rfl List.mem_cons_self fun hg _ => hone (fun hg => subMod_lt (hsrc hg ra) (hsrc hg rb)) hg
  case fpNeg rd ra => exact hput he rfl List.mem_cons_self fun hg _ => hone (fun hg => negMod_lt (hsrc hg ra)) hg
  case fpDbl rd ra =>
    exact hput he rfl List.mem_cons_self fun hg _ => hone (fun hg => addMod_lt (hsrc hg ra) (hsrc hg ra)) hg
  case fpHlv rd ra =>
    exact hput he rfl List.mem_cons_self fun hg _ => hone (fun hg => (halveMod_spec (odd_of_good hg) (hsrc hg ra)).1) hg
  case fpMul rd ra rb =>
    exact hput he rfl List.mem_cons_self fun hg _ => hone (fun hg => (mulFp_spec hg (hsrc hg ra) (hsrc hg rb)).1) hg
  case fpSqr rd ra =>
    exact hput he rfl List.mem_cons_self fun hg _ => hone (fun hg => (mulFp_spec hg (hsrc hg ra) (hsrc hg ra)).1) hg
  case fpInv rd ra => exact hput he rfl List.mem_cons_self fun hg _ x hx => invFp_lt hg hx
  case fpExp rd ra rb => exact hput he rfl List.mem_cons_self fun hg _ => hexp _ ra rb hg
  case fpExpMonty rd ra rb => exact hput he rfl List.mem_cons_self fun hg _ => hexp _ ra rb hg
  case fpConv rd ra =>
    refine hput he rfl List.mem_cons_self fun hg _ x hx => ?_
    have hlt := (convDigits_spec hg (hsrc hg ra)).1
    unfold convDigits at hlt
    cases hb : s.build.fpRdc
    all_goals
      rw [hb] at hx hlt
      exact Option.some.inj hx ▸ hlt
  case fpBack rd ra =>
    refine hput he rfl List.mem_cons_self fun hg _ x hx => ?_
    have hlt := (backDigits_spec hg (hsrc hg ra)).1
    unfold backDigits at hlt
    cases hb : s.build.fpRdc
    all_goals
      rw [hb] at hx hlt
      exact Option.some.inj hx ▸ hlt
  case fpRdc rd ra =>
    replace he : exec (.fpRdc rd ra) s = .next t := he
    cases hb : s.build.fpRdc with
    | monty =>
      obtain ⟨w, hex, hw⟩ := exec_rdcn (.inr ⟨rfl, hb⟩)
      exact hrdcn (hex ▸ he) hw
    | sparse =>
      obtain ⟨w, hex, hw⟩ := exec_rdcs (.inr ⟨rfl, hb⟩)
      exact hrdcs (hex ▸ he) hw
  case fpRdcn rd ra => exact hrdcn he rfl
  case fpRdcs rd ra => exact hrdcs he rfl
  case fpCmp => exact canonical_command h (fun _ => canonical_setCmpOr h _ _) he
  case fpMuln => exact canonical_command h (fun _ => canonical_putDvOr h _ _ _) he
  case fpSrt rd ra =>
    refine canonical_command h (fun hpass => ?_) he
    have hg := hup List.mem_cons_self hpass
    have hroot {x : Nat} (hx : x < s.ctx.fpP) (b : Bool) (k : Nat) :
        Canonical (((s.putFp rd x).setT b).drawn k) :=
      canonical_congr (canonical_putFp h rd hx) rfl rfl rfl rfl rfl rfl rfl
    split
    · rename_i y hy
      exact hroot (repFp_lt (fpP_pos hg) (chooseRoot_spec (sqrtMod_lt (fpP_pos hg) (given_eq_some.mp hy).2)).1) _ _
    · split
      · exact canonical_congr h rfl rfl rfl rfl rfl rfl rfl
      · exact hroot (Nat.mod_lt _ (fpP_pos hg)) _ _
  all_goals simp [rowCode] at hi

/-- The commands of the binary field (44_fb). -/
theorem canonical_fb (hgood : s.build.hasFb = true → FbGood s) {i : Instr} (hi : (rowCode i).1 / 16 = 5)
    (he : exec i s = .next t) : Canonical t := by
  have hup {cs : List Check} (hc : needConfig (fbReady s) ∈ cs) (hpass : ∀ c ∈ cs, c.ok = true) : FbGood s :=
    hgood ((fbReady_iff s).mp (hpass _ hc)).1
  have hput {op : Nat} {cs : List Check} {w : State → State} {rd : Reg} {v : Option Nat}
      (he : command op cs w s = .next t) (hw : w s = s.putFbOr rd v) (hready : needConfig (fbReady s) ∈ cs)
      (hv : FbGood s → ∀ x, v = some x → x < 2 ^ s.build.m) : Canonical t :=
    canonical_command h (fun hpass => by
      rw [hw]
      exact canonical_putFbOr h rd (hv (hup hready hpass))) he
  have hone {x : Nat} (hx : FbGood s → x < 2 ^ s.build.m) : FbGood s → ∀ y, some x = some y → y < 2 ^ s.build.m :=
    fun hg y hy => Option.some.inj hy ▸ hx hg
  have hsrc (hg : FbGood s) (r : Reg) : s.fb[r] < 2 ^ s.build.m := h.fb hg.unit r
  have hinv {v : FbInv} {a : Nat} (hg : FbGood s) (x : Nat) (hx : s.invFb v a = some x) : x < 2 ^ s.build.m :=
    invBy_lt (le_fbPoly hg) (fbPoly_lt hg) hx
  cases i
  all_goals dsimp only [exec] at he
  case fbAdd rd ra rb =>
    exact hput he rfl List.mem_cons_self (hone fun hg => Nat.xor_lt_two_pow (hsrc hg ra) (hsrc hg rb))
  case fbMul | fbSqr => exact hput he rfl List.mem_cons_self (hone fun hg => mulFb_lt hg _ _)
  case fbRdc => exact hput he rfl List.mem_cons_self (hone fun hg => pmod_lt (le_fbPoly hg) (fbPoly_lt hg) _)
  case fbSrt rd ra =>
    refine hput he rfl List.mem_cons_self fun hg x hx => ?_
    obtain ⟨hx, -⟩ := Option.filter_eq_some_iff.mp hx
    exact Option.some.inj hx ▸ fbSqrTimes_lt (le_fbPoly hg) (fbPoly_lt hg) _ _ (hsrc hg ra)
  case fbSlv rd ra =>
    refine hput he rfl List.mem_cons_self fun hg x hx => ?_
    obtain ⟨hx, -⟩ := Option.filter_eq_some_iff.mp hx
    exact Option.some.inj hx ▸ fbHalfTraceLoop_lt (le_fbPoly hg) (fbPoly_lt hg) _ _ _ (hsrc hg ra) (Nat.two_pow_pos _)
  case fbInv | fbInvBasic | fbInvBinar | fbInvAlmos | fbInvExgcd | fbInvItoht | fbInvLower =>
    exact hput he rfl List.mem_cons_self hinv
  case fbCmp => exact canonical_command h (fun _ => canonical_setCmpOr h _ _) he
  case fbMuln => exact canonical_command h (fun _ => canonical_putDvOr h _ _ _) he
  case fbTrc ra =>
    refine canonical_command h (fun _ => ?_) he
    split <;> exact canonical_congr h rfl rfl rfl rfl rfl rfl rfl
  case fbInvSim rd ra cnt =>
    refine canonical_command h (fun hpass => ?_) he
    have hg := hup (List.mem_cons_of_mem _ List.mem_cons_self) hpass
    dsimp only
    split
    · rename_i x hx
      exact canonical_putFbRange _ h rd
        (simBack_lt (le_fbPoly hg) (fbPoly_lt hg) _ (hinv hg x (given_eq_some.mp hx).2))
    · refine canonical_drawn (canonical_putFbRange _ h rd fun v hv => ?_) _
      obtain ⟨j, -, rfl⟩ := List.mem_map.mp hv
      exact Nat.mod_lt _ (Nat.two_pow_pos _)
  all_goals simp [rowCode] at hi

/-- The commands of the prime curve (45_ep). -/
theorem canonical_ep (hgood : s.build.hasFp = true → FpGood s) {i : Instr}
    (hi : (rowCode i).1 / 16 = 6 ∨ (rowCode i).1 / 16 = 7) (he : exec i s = .next t) : Canonical t := by
  have hput {op : Nat} {cs : List Check} {w : State → State} {es : List PointReg} {rd : Reg} {v : Option PointReg}
      {k : Nat} (he : command op cs w s = .next t) (hw : w s = s.epResult es rd v k)
      (hready : needConfig (fpReady s) ∈ cs) (hv : FpGood s → ∀ x, v = some x → EpOk s x) : Canonical t :=
    canonical_command h (fun hpass => by
      have hg := hgood ((fpReady_iff s).mp (hpass _ hready)).1
      rw [hw]
      exact canonical_epResult h hg es rd k (hv hg)) he
  have hsrc (hg : FpGood s) (r : Reg) : EpOk s s.ep[r] := h.ep hg.unit r
  cases i
  all_goals dsimp only [exec] at he
  case epNeg rd ra =>
    exact hput he rfl List.mem_cons_self fun hg x hx => Option.some.inj hx ▸ epOk_neg hg (hsrc hg ra)
  case epDbl rd ra =>
    exact hput he rfl List.mem_cons_self fun hg x hx =>
      epOk_some hg ((epOps_below hg).dbl (Q := ()) (epPt_below hg _)) hx
  case epAdd rd ra rb =>
    exact hput he rfl List.mem_cons_self fun hg x hx =>
      epOk_some hg ((epOps_below hg).add (Q := ()) (Q' := ()) (epPt_below hg _) (epPt_below hg _)) hx
  case epNorm rd ra => exact hput he rfl List.mem_cons_self fun hg x hx => epOk_normReg hg (hsrc hg ra) hx
  case epMul | epMulBasic | epMulLwnaf | epMulRwnaf =>
    exact hput he rfl List.mem_cons_self fun hg x hx => epOk_mul hg _ _ hx
  case epSim | epSimBasic | epSimTrick | epSimInter | epSimJoint =>
    exact hput he rfl List.mem_cons_self fun hg x hx => epOk_sim hg _ _ _ hx
  all_goals simp [rowCode] at hi

/-- The commands of the binary curve (46_eb). -/
theorem canonical_eb (hgood : s.build.hasFb = true → FbGood s) {i : Instr}
    (hi : (rowCode i).1 / 16 = 8 ∨ (rowCode i).1 / 16 = 9) (he : exec i s = .next t) : Canonical t := by
  have hput {op : Nat} {cs : List Check} {w : State → State} {es : List PointReg} {rd : Reg} {v : Option PointReg}
      {k : Nat} (he : command op cs w s = .next t) (hw : w s = s.ebResult es rd v k)
      (hready : needConfig (ebReady s) ∈ cs) (hv : FbGood s → ∀ x, v = some x → EbOk s x) : Canonical t :=
    canonical_command h (fun hpass => by
      have hg := hgood ((ebReady_iff s).mp (hpass _ hready)).1.1
      rw [hw]
      exact canonical_ebResult h hg es rd k (hv hg)) he
  have hsrc (hg : FbGood s) (r : Reg) : EbOk s s.eb[r] := h.eb hg.unit r
  cases i
  all_goals dsimp only [exec] at he
  case ebNeg rd ra =>
    exact hput he rfl List.mem_cons_self fun hg x hx => Option.some.inj hx ▸ ebOk_neg hg (hsrc hg ra)
  case ebDbl rd ra =>
    exact hput he rfl List.mem_cons_self fun hg x hx =>
      ebOk_some hg ((ebOps_below hg).dbl (Q := ()) (ebPt_below hg _)) hx
  case ebAdd rd ra rb =>
    exact hput he rfl List.mem_cons_self fun hg x hx =>
      ebOk_some hg ((ebOps_below hg).add (Q := ()) (Q' := ()) (ebPt_below hg _) (ebPt_below hg _)) hx
  case ebNorm rd ra => exact hput he rfl List.mem_cons_self fun hg x hx => ebOk_normReg hg (hsrc hg ra) hx
  case ebFrb rd ra =>
    exact hput he rfl List.mem_cons_self fun hg x hx => Option.some.inj hx ▸ ebOk_frb hg (hsrc hg ra)
  case ebHlv rd ra => exact hput he rfl List.mem_cons_self fun hg x hx => ebOk_half hg hx
  case ebMul | ebMulBasic | ebMulLwnaf | ebMulRwnaf | ebMulLodah | ebMulHalve =>
    exact hput he rfl List.mem_cons_self fun hg x hx => ebOk_mul hg _ _ hx
  case ebSim | ebSimBasic | ebSimTrick | ebSimInter | ebSimJoint =>
    exact hput he rfl List.mem_cons_self fun hg x hx => ebOk_sim hg _ _ _ hx
  all_goals simp [rowCode] at hi

/-- The system, digit-vector and recoding commands (40_dv, 42_rec, 47_sys), once the context is locked. -/
theorem canonical_other (hinit : s.status.init = true) (hgood : s.build.hasFp = true → FpGood s) {i : Instr}
    (hi : (rowCode i).1 / 16 = 0 ∨ (rowCode i).1 / 16 = 1 ∨ (rowCode i).1 / 16 = 3) (he : exec i s = .next t) :
    Canonical t := by
  cases i
  all_goals dsimp only [exec] at he
  case nop | clrerr => exact canonical_command h (fun _ => canonical_congr h rfl rfl rfl rfl rfl rfl rfl) he
  case ctxInit =>
    refine canonical_command h (fun hpass => ?_) he
    have hopen : (!s.status.init) = true := hpass (needConfig (!s.status.init)) List.mem_cons_self
    rw [hinit] at hopen
    cases hopen
  case dvZero sp rd =>
    exact canonical_command h (fun _ => canonical_zeroReg h (fun hu => fpP_pos (hgood hu)) sp rd) he
  case dvCopy sp rd ra => exact canonical_command h (fun _ => canonical_copyReg h sp rd ra) he
  case dvCmp => exact canonical_command h (fun _ => canonical_congr h rfl rfl rfl rfl rfl rfl rfl) he
  case recNaf | recWin => exact canonical_command h (fun _ => canonical_putRc h _ _) he
  case recJsf => exact canonical_command h (fun _ => canonical_putRc (canonical_putRc h _ _) _ _) he
  case recTnaf => exact canonical_command h (fun _ => canonical_drawn (canonical_putRc h _ _) _) he
  case recReg => exact canonical_command h (fun _ => h) he
  all_goals simp [rowCode] at hi

end families

/-- Settles O39, family by family. -/
theorem commandsKeepCanonical : Obligations.CommandsKeepCanonical := by
  unfold Obligations.CommandsKeepCanonical
  intro i s t hwf hfits hsound hinit h he
  have hfp (hu : s.build.hasFp = true) : FpGood s := ⟨hwf, hfits, hsound, hu, hinit⟩
  have hfb (hu : s.build.hasFb = true) : FbGood s := ⟨hwf, hfits, hsound, hu, hinit⟩
  have hrow : (rowCode i).1 / 16 < 10 := by cases i <;> simp [rowCode]
  by_cases h2 : (rowCode i).1 / 16 = 2
  · exact canonical_bn h hfits h2 he
  by_cases h4 : (rowCode i).1 / 16 = 4
  · exact canonical_fp h hfp h4 he
  by_cases h5 : (rowCode i).1 / 16 = 5
  · exact canonical_fb h hfb h5 he
  by_cases h6 : (rowCode i).1 / 16 = 6 ∨ (rowCode i).1 / 16 = 7
  · exact canonical_ep h hfp h6 he
  by_cases h8 : (rowCode i).1 / 16 = 8 ∨ (rowCode i).1 / 16 = 9
  · exact canonical_eb h hfb h8 he
  · exact canonical_other h hinit hfp (by omega) he

end Sys2Proof.Proofs.CanonicalCommands
end

section
/-! PROOFS. What a host write does to the values of the window (20_memory R73, R74): the written location reads as
the bits it keeps, every other one as before. -/

set_option Elab.async false

namespace Sys2Proof.Proofs.Window

open Sys2Proof.Machine Sys2Proof.Laws Sys2Proof.Proofs.Memory Sys2Proof.Proofs.Step Sys2Proof.Proofs.Port

/-! Digits. -/

/-- Another digit of the vector keeps its value (20_memory R73). -/
theorem digit_setDigit_other {W i j : Nat} (v d : Nat) (h : j ≠ i) : digit W (setDigit W v i d) j = digit W v j := by
  have hA : 0 < 2 ^ (W * i) := Nat.two_pow_pos _
  have hsplit : 2 ^ (W * (i + 1)) = 2 ^ (W * i) * 2 ^ W := by rw [← pow_add, Nat.mul_succ]
  rcases Nat.lt_or_gt_of_ne h with hlt | hgt
  · have hpow : 2 ^ (W * i) = 2 ^ (W * j) * 2 ^ (W * (i - j)) := by
      rw [← pow_add, ← Nat.mul_add]
      congr 2
      omega
    have hlow (x : Nat) : digit W x j = x % 2 ^ (W * i) / 2 ^ (W * j) % 2 ^ W := by
      have hdvd : 2 ^ W ∣ 2 ^ (W * (i - j)) := pow_dvd_pow 2 (Nat.le_mul_of_pos_right W (by omega))
      rw [digit, hpow, Nat.mod_mul_right_div_self, Nat.mod_mod_of_dvd _ hdvd]
    have hmod : setDigit W v i d % 2 ^ (W * i) = v % 2 ^ (W * i) := by
      rw [setDigit, hsplit, Nat.mul_assoc, Nat.add_mul_mod_self_left, Nat.add_mul_mod_self_left, Nat.mod_mod]
    rw [hlow, hmod, ← hlow]
  · have hpow : 2 ^ (W * j) = 2 ^ (W * (i + 1)) * 2 ^ (W * (j - (i + 1))) := by
      rw [← pow_add, ← Nat.mul_add]
      congr 2
      omega
    have hlow : v % 2 ^ (W * i) + 2 ^ (W * i) * (d % 2 ^ W) < 2 ^ (W * (i + 1)) := by
      have h1 : v % 2 ^ (W * i) < 2 ^ (W * i) := Nat.mod_lt _ hA
      have h2 : d % 2 ^ W + 1 ≤ 2 ^ W := Nat.mod_lt _ (Nat.two_pow_pos W)
      calc v % 2 ^ (W * i) + 2 ^ (W * i) * (d % 2 ^ W) < 2 ^ (W * i) + 2 ^ (W * i) * (d % 2 ^ W) :=
            Nat.add_lt_add_right h1 _
        _ = 2 ^ (W * i) * (d % 2 ^ W + 1) := by ring
        _ ≤ 2 ^ (W * (i + 1)) := hsplit ▸ Nat.mul_le_mul_left _ h2
    have hdiv : setDigit W v i d / 2 ^ (W * (i + 1)) = v / 2 ^ (W * (i + 1)) := by
      rw [setDigit, Nat.add_mul_div_left _ _ (Nat.two_pow_pos _), Nat.div_eq_of_lt hlow, Nat.zero_add]
    rw [digit, digit, hpow, ← Nat.div_div_eq_div_mul, ← Nat.div_div_eq_div_mul, hdiv]

theorem toNat_bitOf (v k : Nat) : (bitOf v k).toNat = v / 2 ^ k % 2 := by
  unfold bitOf
  rcases Nat.mod_two_eq_zero_or_one (v / 2 ^ k) with h | h <;> rw [h] <;> rfl

/-! The parts of a context and of a point. -/

theorem vec_setVec (c : Ctx) (k : CtxVec) (x : Nat) : (c.setVec k x).vec k = x := by cases k <;> rfl

theorem vec_setVec_other (c : Ctx) {k l : CtxVec} (x : Nat) (h : l ≠ k) : (c.setVec k x).vec l = c.vec l := by
  cases k <;> cases l <;> first | rfl | exact absurd rfl h

theorem exp_setExp (c : Ctx) (e : PolyExp) (x : BitVec 32) : (c.setExp e x).exp e = x := by cases e <;> rfl

theorem exp_setExp_other (c : Ctx) {e g : PolyExp} (x : BitVec 32) (h : g ≠ e) : (c.setExp e x).exp g = c.exp g := by
  cases e <;> cases g <;> first | rfl | exact absurd rfl h

theorem coord_setCoord (e : PointReg) (c : Coord) (x : Nat) : (e.setCoord c x).coord c = x := by cases c <;> rfl

theorem coord_setCoord_other (e : PointReg) {c d : Coord} (x : Nat) (h : d ≠ c) : (e.setCoord c x).coord d = e.coord d := by
  cases c <;> cases d <;> first | rfl | exact absurd rfl h

theorem digit_coord_other {W : Nat} (e : PointReg) {c d : Coord} {i j : Nat} (v : Nat) (h : d = c → j ≠ i) :
    digit W ((e.setCoord c (setDigit W (e.coord c) i v)).coord d) j = digit W (e.coord d) j := by
  by_cases hd : d = c
  · subst hd
    rw [coord_setCoord, digit_setDigit_other _ _ (h rfl)]
  · rw [coord_setCoord_other _ _ hd]

theorem norm_setCoord (e : PointReg) (c : Coord) (x : Nat) : (e.setCoord c x).norm = e.norm := by cases c <;> rfl

/-! The written location. -/

/-- A location that a host write can reach (20_memory R74). -/
def Writable (l : Loc) : Prop := l.access = .readWrite ∨ l.access = .untilInit

theorem readLoc_writeLoc_same {s : State} (hfits : Fits s) {l : Loc} (hl : Writable l) (hr : Loc.InRange s.build l) {v : Nat}
    (hv : v < 2 ^ l.width s.build) : readLoc (writeLoc s v l) l = kept s.build v l := by
  have h32 (x : Nat) (hx : x < 2 ^ 32) : (BitVec.ofNat 32 x).toNat = x := by
    rw [BitVec.toNat_ofNat, Nat.mod_eq_of_lt hx]
  cases l
  case cmd | status | err | flags | fpU | chainLen | chainEntry | nUsed => exact absurd hl (by simp [Writable, Loc.access])
  all_goals simp only [writeLoc, readLoc, writeCtx, kept, Loc.width, getElem_set_same] at hv ⊢
  case ctxDigit k i => rw [vec_setVec, digit_setDigit, Nat.mod_eq_of_lt hv]
  case dv | nDigit | fp | fb => rw [digit_setDigit, Nat.mod_eq_of_lt hv]
  case epDigit | ebDigit => rw [coord_setCoord, digit_setDigit, Nat.mod_eq_of_lt hv]
  case sfCnt | sfTop => exact h32 v hv
  case poly e => rw [exp_setExp, h32 v hv]
  case nSign | epNorm | ebNorm => rw [toNat_bitOf, pow_zero, Nat.div_one]
  case sfTerm i =>
    have hi : i < s.ctx.sfTerms.length := hfits.ctx.terms ▸ hr
    rw [List.getD_eq_getElem _ _ (by rwa [List.length_set]), List.getElem_set_self, SparseTerm.word, toNat_bitOf,
      BitVec.toNat_ofNat]
    omega
  case ebFlags =>
    simp only [EbFlags.word, toNat_bitOf]
    omega
  case rcEntry r i =>
    have hi : i < s.rc[r].d.length := (hfits.rc r).1 ▸ hr
    rw [List.getD_eq_getElem _ _ (by rwa [List.length_set]), List.getElem_set_self, BitVec.toNat_ofNat,
      Nat.mod_eq_of_lt hv]

/-! The other locations. -/

theorem getD_set_other {α : Type} (ds : List α) (x z : α) {i j : Nat} (h : j ≠ i) : (ds.set i x).getD j z = ds.getD j z := by
  rw [List.getD_eq_getElem?_getD, List.getElem?_set_ne h.symm, ← List.getD_eq_getElem?_getD]

/-- A value read from a register file after one register of it was replaced. -/
theorem read_set {α β : Type} (v : Vector α 16) (r r' : Reg) (x : α) (g : α → β) (h : r' = r → g x = g v[r]) :
    g (v.set r x)[r'] = g v[r'] := by
  by_cases hr : r' = r
  · subst hr
    rw [getElem_set_same]
    exact h rfl
  · rw [getElem_set_other r r' v x hr]

/-- A write to a context location leaves the others. -/
theorem readLoc_writeCtx_other {s : State} {l l' : Loc} (v : Nat) (hne : l' ≠ l) :
    readLoc { s with ctx := writeCtx s.build s.ctx v l } l' = readLoc s l' := by
  cases l
  case ctxDigit k i =>
    cases l'
    case ctxDigit k' i' =>
      show digit _ ((s.ctx.setVec k _).vec k') i' = _
      by_cases hk : k' = k
      · subst hk
        rw [vec_setVec]
        exact digit_setDigit_other _ _ fun hi => hne (hi ▸ rfl)
      · rw [vec_setVec_other _ _ hk]
        rfl
    all_goals cases k <;> rfl
  case poly e =>
    cases l'
    case poly e' => exact congrArg BitVec.toNat (exp_setExp_other _ _ fun he => hne (he ▸ rfl))
    case ctxDigit k' i' => cases e <;> cases k' <;> rfl
    all_goals cases e <;> rfl
  case sfTerm i =>
    cases l'
    case sfTerm i' => exact congrArg SparseTerm.word (getD_set_other _ _ _ fun hi => hne (hi ▸ rfl))
    case ctxDigit k' i' => cases k' <;> rfl
    case poly e' => cases e' <;> rfl
    all_goals rfl
  case sfCnt | sfTop | ebFlags =>
    cases l'
    case ctxDigit k' i' => cases k' <;> rfl
    case poly e' => cases e' <;> rfl
    all_goals first | rfl | exact absurd rfl hne
  all_goals rfl

/-- Every other location reads as before, but `used` of a register whose digit was written (20_memory R73). -/
theorem readLoc_writeLoc_other {s : State} {l l' : Loc} (v : Nat) (hne : l' ≠ l)
    (hused : ∀ r i, ¬(l = .nDigit r i ∧ l' = .nUsed r)) : readLoc (writeLoc s v l) l' = readLoc s l' := by
  cases l
  case dv r i =>
    cases l'
    case dv r' i' =>
      exact read_set _ r r' _ (digit s.build.W · i') fun hr => digit_setDigit_other _ _ fun hi => hne (hr ▸ hi ▸ rfl)
    all_goals rfl
  case fp r i =>
    cases l'
    case fp r' i' =>
      exact read_set _ r r' _ (digit s.build.W · i') fun hr => digit_setDigit_other _ _ fun hi => hne (hr ▸ hi ▸ rfl)
    all_goals rfl
  case fb r i =>
    cases l'
    case fb r' i' =>
      exact read_set _ r r' _ (digit s.build.W · i') fun hr => digit_setDigit_other _ _ fun hi => hne (hr ▸ hi ▸ rfl)
    all_goals rfl
  case nDigit r i =>
    cases l'
    case nDigit r' i' =>
      exact read_set _ r r' _ (fun x : BigReg => digit s.build.W x.mag i') fun hr =>
        digit_setDigit_other _ _ fun hi => hne (hr ▸ hi ▸ rfl)
    case nSign r' => exact read_set _ r r' _ (fun x : BigReg => x.sign.toNat) fun _ => rfl
    case nUsed r' =>
      exact read_set _ r r' _ (fun x : BigReg => x.used s.build.W) fun hr => absurd ⟨rfl, hr ▸ rfl⟩ (hused r i)
    all_goals rfl
  case nSign r =>
    cases l'
    case nDigit r' i' => exact read_set _ r r' _ (fun x : BigReg => digit s.build.W x.mag i') fun _ => rfl
    case nSign r' => exact read_set _ r r' _ (fun x : BigReg => x.sign.toNat) fun hr => absurd (hr ▸ rfl) hne
    case nUsed r' => exact read_set _ r r' _ (fun x : BigReg => x.used s.build.W) fun _ => rfl
    all_goals rfl
  case rcEntry r i =>
    cases l'
    case rcEntry r' i' =>
      exact read_set _ r r' _ (fun x : RecReg => (x.d.getD i' 0).toNat) fun hr =>
        congrArg BitVec.toNat (getD_set_other _ _ _ fun hi => hne (hr ▸ hi ▸ rfl))
    case rcLen r' => exact read_set _ r r' _ (fun x : RecReg => x.len) fun _ => rfl
    all_goals rfl
  case rcLen r =>
    cases l'
    case rcEntry r' i' => exact read_set _ r r' _ (fun x : RecReg => (x.d.getD i' 0).toNat) fun _ => rfl
    case rcLen r' => exact read_set _ r r' _ (fun x : RecReg => x.len) fun hr => absurd (hr ▸ rfl) hne
    all_goals rfl
  case epDigit r c i =>
    cases l'
    case epDigit r' c' i' =>
      refine read_set _ r r' _ (fun x : PointReg => digit s.build.W (x.coord c') i') fun hr => ?_
      exact digit_coord_other _ _ fun hc hi => hne (hr ▸ hc ▸ hi ▸ rfl)
    case epNorm r' => exact read_set _ r r' _ (fun x : PointReg => x.norm.toNat) fun _ => congrArg _ (norm_setCoord _ _ _)
    all_goals rfl
  case epNorm r =>
    cases l'
    case epDigit r' c' i' =>
      exact read_set _ r r' _ (fun x : PointReg => digit s.build.W (x.coord c') i') fun _ => by cases c' <;> rfl
    case epNorm r' => exact read_set _ r r' _ (fun x : PointReg => x.norm.toNat) fun hr => absurd (hr ▸ rfl) hne
    all_goals rfl
  case ebDigit r c i =>
    cases l'
    case ebDigit r' c' i' =>
      refine read_set _ r r' _ (fun x : PointReg => digit s.build.W (x.coord c') i') fun hr => ?_
      exact digit_coord_other _ _ fun hc hi => hne (hr ▸ hc ▸ hi ▸ rfl)
    case ebNorm r' => exact read_set _ r r' _ (fun x : PointReg => x.norm.toNat) fun _ => congrArg _ (norm_setCoord _ _ _)
    all_goals rfl
  case ebNorm r =>
    cases l'
    case ebDigit r' c' i' =>
      exact read_set _ r r' _ (fun x : PointReg => digit s.build.W (x.coord c') i') fun _ => by cases c' <;> rfl
    case ebNorm r' => exact read_set _ r r' _ (fun x : PointReg => x.norm.toNat) fun hr => absurd (hr ▸ rfl) hne
    all_goals rfl
  all_goals exact readLoc_writeCtx_other v hne

theorem fits_of_takes {s s' : State} {x : Txn} (h : Takes s x s') (hfits : Fits s) : Fits s' := by
  obtain ⟨-, ⟨_, -, rfl⟩ | ⟨-, _, -, rfl⟩⟩ := h
  · exact { hfits with }
  · exact { hfits with }

/-- Settles O19. -/
theorem hostWriteReplacesOneLocation : Obligations.HostWriteReplacesOneLocation := by
  unfold Obligations.HostWriteReplacesOneLocation
  intro s s' a v l hfits ht hl hacc hv
  have hb := build_of_takes ht
  have hfits' : Fits s' := fits_of_takes ht hfits
  have hstep : step s = .next (writeLoc s' v l) := by
    rw [← hb] at hl hv
    rw [step_of_takes ht, transact, hostWrite, hl]
    dsimp only [writeMapped]
    rw [if_pos hv]
    rcases hacc with hacc | ⟨hacc, hopen⟩
    · rw [hacc]
    · rw [hacc]
      simp only [status_of_takes ht, hopen, Bool.false_eq_true, if_false]
  obtain ⟨-, -, -, -, hin, hheld⟩ := writeLoc_untouched s' v l
  refine ⟨_, hstep, hin, hheld, ?_, fun a' l' hl' hne hused => ?_⟩
  · rw [← hb] at hl hv
    rw [readLoc_writeLoc_same hfits' (hacc.imp_right And.left) (inRange_locate hl) hv, hb]
  · rw [readLoc_writeLoc_other v hne hused, readLoc_of_takes ht]

end Sys2Proof.Proofs.Window
end

section
/-! PROOFS. The prime curve (45_ep R240 to R244): for prime p the model's operations on affine points are those of
the group of points that Mathlib gives the curve, and a register on the curve stands for such a point. -/

set_option Elab.async false

namespace Sys2Proof.Proofs.PrimeCurve

open Sys2Proof.Machine Sys2Proof.Proofs.PrimeFieldCommands Sys2Proof.Proofs.Loops WeierstrassCurve.Affine

section field

variable {p : Nat} [hp : Fact p.Prime]

/-! Residues as elements of the field. -/

/-- A residue is the value of the element it stands for. -/
theorem eq_val {n : Nat} {x : ZMod p} (hn : n < p) (h : (n : ZMod p) = x) : n = x.val := by
  rw [← h, ZMod.val_natCast_of_lt hn]

theorem cast_subMod {a b : Nat} (ha : a < p) (hb : b < p) : (subMod p a b : ZMod p) = a - b := by
  rw [subMod_eq ha hb, ZMod.natCast_mod, Nat.cast_add, Nat.cast_sub hb.le, ZMod.natCast_self]
  ring

theorem cast_negMod {a : Nat} (ha : a < p) : (negMod p a : ZMod p) = -a := by
  rw [negMod_eq ha, ZMod.natCast_mod, Nat.cast_sub ha.le, ZMod.natCast_self, zero_sub]

theorem cast_eq_zero {a : Nat} (ha : a < p) : (a : ZMod p) = 0 ↔ a = 0 := by
  rw [ZMod.natCast_eq_zero_iff]
  exact ⟨fun h => Nat.eq_zero_of_dvd_of_lt h ha, fun h => h ▸ dvd_zero p⟩

/-- Fermat's inverse is the inverse of the field. -/
theorem invMod_cast {a : Nat} (ha : a < p) (h0 : a ≠ 0) :
    ∃ t, invMod p a = some t ∧ t < p ∧ (t : ZMod p) = (a : ZMod p)⁻¹ := by
  obtain ⟨t, ht, hlt, hmul⟩ := invMod_prime hp.out ha h0
  refine ⟨t, ht, hlt, eq_inv_of_mul_eq_one_right ?_⟩
  have hcast := congrArg (fun n : Nat => (n : ZMod p)) hmul
  simpa only [ZMod.natCast_mod, Nat.cast_mul, Nat.cast_one] using hcast

theorem two_ne_zero_of_odd (hodd : p % 2 = 1) : (2 : ZMod p) ≠ 0 := by
  have h2 : 2 < p := by
    have := hp.out.two_le
    omega
  have h := mt (cast_eq_zero h2).mp two_ne_zero
  exact_mod_cast h

/-! The curve. -/

variable {a b : Nat}

theorem negY_primeCurve (x y : ZMod p) : negY (primeCurve p a b) x y = -y := by
  simp [negY, primeCurve]

theorem addX_primeCurve (x1 x2 l : ZMod p) : addX (primeCurve p a b) x1 x2 l = l ^ 2 - x1 - x2 := by
  simp [addX, primeCurve]

theorem addY_primeCurve (x1 x2 y1 l : ZMod p) :
    addY (primeCurve p a b) x1 x2 y1 l = l * (x1 - (l ^ 2 - x1 - x2)) - y1 := by
  rw [addY, negY_primeCurve, negAddY, addX_primeCurve]
  ring

theorem equation_primeCurve (x y : ZMod p) : Equation (primeCurve p a b) x y ↔ y ^ 2 = x ^ 3 + a * x + b := by
  rw [equation_iff]
  simp [primeCurve]

/-- A curve of 45_ep R240 that is not singular has no singular point. -/
theorem nonsingular_of_equation (hodd : p % 2 = 1) (hs : (4 * a ^ 3 + 27 * b ^ 2) % p ≠ 0) {x y : ZMod p}
    (h : Equation (primeCurve p a b) x y) : Nonsingular (primeCurve p a b) x y := by
  refine (equation_iff_nonsingular_of_Δ_ne_zero ?_).mp h
  have hΔ : (primeCurve p a b).Δ = -(2 ^ 4 * ((4 * a ^ 3 + 27 * b ^ 2 : Nat) : ZMod p)) := by
    simp only [WeierstrassCurve.Δ, WeierstrassCurve.b₂, WeierstrassCurve.b₄, WeierstrassCurve.b₆, WeierstrassCurve.b₈,
      primeCurve]
    push_cast
    ring
  rw [hΔ, neg_ne_zero]
  refine mul_ne_zero (pow_ne_zero 4 (two_ne_zero_of_odd hodd)) ?_
  rwa [Ne, ZMod.natCast_eq_zero_iff, Nat.dvd_iff_mod_eq_zero]

/-! The operations. -/

theorem epChord_eq {x1 y1 x2 : ZMod p} {lam : Nat} {l : ZMod p} (hl : (lam : ZMod p) = l) :
    epChord p lam x1.val y1.val x2.val =
      .aff (l ^ 2 - x1 - x2).val (l * (x1 - (l ^ 2 - x1 - x2)) - y1).val := by
  have hx1 := ZMod.val_lt x1
  have hy1 := ZMod.val_lt y1
  have hx2 := ZMod.val_lt x2
  have hmod (n : Nat) : n % p < p := Nat.mod_lt _ hp.out.pos
  have hsub := subMod_lt (hmod (lam * lam)) hx1
  have hx : (subMod p (subMod p (lam * lam % p) x1.val) x2.val : ZMod p) = l ^ 2 - x1 - x2 := by
    rw [cast_subMod hsub hx2, cast_subMod (hmod _) hx1, ZMod.natCast_mod, Nat.cast_mul, hl, ZMod.natCast_zmod_val,
      ZMod.natCast_zmod_val, sq]
  rw [epChord, Pt.aff.injEq]
  refine ⟨eq_val (subMod_lt hsub hx2) hx, eq_val (subMod_lt (hmod _) hy1) ?_⟩
  rw [cast_subMod (hmod _) hy1, ZMod.natCast_mod, Nat.cast_mul, hl, cast_subMod hx1 (subMod_lt hsub hx2), hx,
    ZMod.natCast_zmod_val, ZMod.natCast_zmod_val]

/-- A point and what stands for it. -/
def Stands (q : Pt) (P : (primeCurve p a b).Point) : Prop := PtIs P q

theorem stands_neg {q : Pt} {P : (primeCurve p a b).Point} (h : Stands q P) : Stands (epNegPt p q) (-P) := by
  cases P with
  | zero =>
    obtain rfl : q = .inf := h
    rfl
  | some x y hns =>
    obtain rfl : q = .aff x.val y.val := h
    rw [Point.neg_some]
    show Pt.aff _ _ = Pt.aff _ _
    rw [Pt.aff.injEq, negY_primeCurve]
    refine ⟨rfl, eq_val (negMod_lt (ZMod.val_lt y)) ?_⟩
    rw [cast_negMod (ZMod.val_lt y), ZMod.natCast_zmod_val]

theorem stands_dbl (hodd : p % 2 = 1) {q : Pt} {P : (primeCurve p a b).Point} (h : Stands q P) :
    Stands (epDblPt p a q) (P + P) := by
  cases P with
  | zero =>
    obtain rfl : q = .inf := h
    exact (add_zero (0 : (primeCurve p a b).Point)).symm ▸ rfl
  | some x y hns =>
    obtain rfl : q = .aff x.val y.val := h
    have h2 := two_ne_zero_of_odd hodd
    rw [epDblPt]
    split
    · rename_i h0
      have hy : y = 0 := (ZMod.val_eq_zero y).mp h0
      rw [Point.add_self_of_Y_eq (by rw [negY_primeCurve, hy, neg_zero])]
      rfl
    · rename_i h0
      have hy : y ≠ 0 := fun he => h0 ((ZMod.val_eq_zero y).mpr he)
      have hne : y ≠ negY (primeCurve p a b) x y := by
        rw [negY_primeCurve]
        intro he
        exact mul_ne_zero h2 hy (by linear_combination he)
      have hden : ((2 * y.val % p : Nat) : ZMod p) = 2 * y := by
        rw [ZMod.natCast_mod, Nat.cast_mul, ZMod.natCast_zmod_val, Nat.cast_ofNat]
      have hden0 : 2 * y.val % p ≠ 0 := by
        rw [Ne, ← cast_eq_zero (Nat.mod_lt _ hp.out.pos), hden]
        exact mul_ne_zero h2 hy
      obtain ⟨t, ht, -, hinv⟩ := invMod_cast (Nat.mod_lt _ hp.out.pos) hden0
      rw [ht, Point.add_self_of_Y_ne hne]
      dsimp only
      rw [epChord_eq (l := slope (primeCurve p a b) x x y y)]
      · rw [Stands, PtIs, addX_primeCurve, addY_primeCurve]
      · rw [ZMod.natCast_mod, Nat.cast_mul, ZMod.natCast_mod, hinv, hden, slope_of_Y_ne rfl hne, negY_primeCurve]
        simp only [Nat.cast_add, Nat.cast_mul, ZMod.natCast_zmod_val, primeCurve]
        rw [div_eq_mul_inv]
        push_cast
        ring_nf

theorem stands_add (hodd : p % 2 = 1) {q r : Pt} {P Q : (primeCurve p a b).Point} (hP : Stands q P) (hQ : Stands r Q) :
    Stands (epAddPt p a q r) (P + Q) := by
  cases P with
  | zero =>
    obtain rfl : q = .inf := hP
    exact (zero_add Q).symm ▸ hQ
  | some x1 y1 hns1 =>
    obtain rfl : q = .aff x1.val y1.val := hP
    cases Q with
    | zero =>
      obtain rfl : r = .inf := hQ
      exact (add_zero (Point.some x1 y1 hns1)).symm ▸ rfl
    | some x2 y2 hns2 =>
      obtain rfl : r = .aff x2.val y2.val := hQ
      rw [epAddPt]
      split
      · rename_i hx
        obtain rfl := ZMod.val_injective p hx
        split
        · rename_i hy
          obtain rfl := ZMod.val_injective p hy
          exact stands_dbl hodd rfl
        · rename_i hy
          rcases Y_eq_of_X_eq hns1.1 hns2.1 rfl with rfl | hneg
          · exact absurd rfl hy
          · rw [Point.add_of_Y_eq rfl hneg]
            rfl
      · rename_i hx
        have hne : x1 ≠ x2 := fun he => hx (he ▸ rfl)
        have hden : (subMod p x2.val x1.val : ZMod p) = x2 - x1 := by
          rw [cast_subMod (ZMod.val_lt _) (ZMod.val_lt _), ZMod.natCast_zmod_val, ZMod.natCast_zmod_val]
        have hlt := subMod_lt (ZMod.val_lt x2) (ZMod.val_lt x1)
        have hden0 : subMod p x2.val x1.val ≠ 0 := by
          rw [Ne, ← cast_eq_zero hlt, hden]
          exact sub_ne_zero.mpr hne.symm
        obtain ⟨t, ht, -, hinv⟩ := invMod_cast hlt hden0
        rw [ht, Point.add_of_X_ne hne]
        dsimp only
        rw [epChord_eq (l := slope (primeCurve p a b) x1 x2 y1 y2)]
        · rw [Stands, PtIs, addX_primeCurve, addY_primeCurve]
        · rw [ZMod.natCast_mod, Nat.cast_mul, hinv, hden, cast_subMod (ZMod.val_lt _) (ZMod.val_lt _),
            ZMod.natCast_zmod_val, ZMod.natCast_zmod_val, slope_of_X_ne hne, ← div_eq_mul_inv, ← neg_sub y1,
            ← neg_sub x1, neg_div_neg_eq]

/-- The operations of the model are those of the group of points (45_ep R240). -/
theorem opsRel_prime (hodd : p % 2 = 1) :
    OpsRel Stands (epOps p a) (groupOps (primeCurve p a b).Point) where
  zero := rfl
  neg := fun h => stands_neg h
  add := fun h k => stands_add hodd h k
  dbl := fun h => stands_dbl hodd h

end field

end Sys2Proof.Proofs.PrimeCurve
end

section
/-! PROOFS. The prime-curve commands (45_ep R244 to R268): the point that a register stands for, the registers that
stand for a point, and what each command writes in a context that is true. -/

set_option Elab.async false

namespace Sys2Proof.Proofs.PrimeCurveCommands

open Sys2Proof.Machine Sys2Proof.Laws Sys2Proof.Proofs.Context Sys2Proof.Proofs.Recoding Sys2Proof.Proofs.Frames
  Sys2Proof.Proofs.Faults Sys2Proof.Proofs.Step Sys2Proof.Proofs.Loops Sys2Proof.Proofs.Residues
  Sys2Proof.Proofs.PrimeFieldCommands Sys2Proof.Proofs.Canonicity Sys2Proof.Proofs.CanonicalCommands
  Sys2Proof.Proofs.PrimeCurve WeierstrassCurve.Affine

/-! Register digits as elements of the field. -/

/-- The element that register digits stand for (00_scope R25). -/
def coord (s : State) (v : Nat) : ZMod s.ctx.fpP := (s.valFp v : ZMod s.ctx.fpP)

section coordinates

variable {s : State} (hg : FpGood s)

/-- The element depends linearly on the digits: a factor R⁻¹ under MONTY, 1 under SPARSE. -/
theorem coord_linear (s : State) : ∃ c : ZMod s.ctx.fpP, ∀ v, coord s v = v * c := by
  unfold coord State.valFp valFp
  cases s.build.fpRdc with
  | monty => exact ⟨rInv s.build s.ctx.fpP, fun v => by rw [ZMod.natCast_mod, Nat.cast_mul]⟩
  | sparse => exact ⟨1, fun v => (mul_one _).symm⟩

include hg

theorem coord_repFp {v : Nat} (hv : v < s.ctx.fpP) : coord s (repFp s.build s.ctx.fpP v) = v :=
  congrArg Nat.cast (valFp_repFp (odd_of_good hg) hv)

theorem fpOne_eq_repFp : s.ctx.fpOne = repFp s.build s.ctx.fpP 1 := by
  rw [(derived_of_good hg).one, repFp]
  cases s.build.fpRdc <;> simp

variable [hp : Fact (Nat.Prime s.ctx.fpP)]

theorem coord_eq_zero {v : Nat} (hv : v < s.ctx.fpP) : coord s v = 0 ↔ v = 0 :=
  (cast_eq_zero (valFp_lt hp.out.pos hv)).trans (valFp_eq_zero (odd_of_good hg) hv)

omit hg in
theorem coord_negMod {v : Nat} (hv : v < s.ctx.fpP) : coord s (negMod s.ctx.fpP v) = -coord s v := by
  obtain ⟨c, hc⟩ := coord_linear s
  rw [hc, hc, cast_negMod hv, neg_mul]

/-! The point of a register (45_ep R242). -/

theorem epPt_of_ne {e : PointReg} (hz : e.z < s.ctx.fpP) (h0 : e.z ≠ 0) : s.epPt e =
    .aff (coord s e.x * (coord s e.z)⁻¹ ^ 2).val (coord s e.y * (coord s e.z)⁻¹ ^ 3).val := by
  obtain ⟨t, ht, -, hinv⟩ := invMod_cast (valFp_lt hp.out.pos hz) (mt (valFp_eq_zero (odd_of_good hg) hz).mp h0)
  have hmod (n : Nat) : n % s.ctx.fpP < s.ctx.fpP := Nat.mod_lt _ hp.out.pos
  rw [State.epPt, epPoint, if_neg h0, ht]
  dsimp only
  rw [Pt.aff.injEq]
  refine ⟨eq_val (hmod _) ?_, eq_val (hmod _) ?_⟩ <;>
  · simp only [ZMod.natCast_mod, Nat.cast_mul, hinv, coord, State.valFp]
    ring

omit hg in
omit hp in
theorem epPt_infinity : s.epPt PointReg.infinity = .inf := by
  rw [State.epPt, epPoint, if_pos (show PointReg.infinity.z = 0 from rfl)]

theorem z_eq_zero_of_inf {e : PointReg} (hz : e.z < s.ctx.fpP) (h : s.epPt e = .inf) : e.z = 0 := by
  by_contra h0
  rw [epPt_of_ne hg hz h0] at h
  cases h

/-- A register that is not infinity is on the curve when its point meets the affine equation (45_ep R241). -/
theorem epOn_iff {e : PointReg} (hz : e.z < s.ctx.fpP) (h0 : e.z ≠ 0) : epOn s e = true ↔
    Equation s.curve (coord s e.x * (coord s e.z)⁻¹ ^ 2) (coord s e.y * (coord s e.z)⁻¹ ^ 3) := by
  have hZ : coord s e.z ≠ 0 := by rwa [Ne, coord_eq_zero hg hz]
  have hcast : epOn s e = true ↔ coord s e.y * coord s e.y = coord s e.x ^ 3 +
      coord s s.ctx.ep.a * coord s e.x * coord s e.z ^ 4 + coord s s.ctx.ep.b * coord s e.z ^ 6 := by
    rw [epOn, beq_eq_false_iff_ne.mpr h0, Bool.false_or, epOnCurve, beq_iff_eq, ← ZMod.natCast_eq_natCast_iff']
    simp only [coord, Nat.cast_add, Nat.cast_mul, Nat.cast_pow]
  rw [hcast, State.curve, equation_primeCurve]
  show _ ↔ _ = _ + coord s s.ctx.ep.a * _ + coord s s.ctx.ep.b
  generalize coord s e.x = X, coord s e.y = Y, coord s s.ctx.ep.a = a, coord s s.ctx.ep.b = b
  constructor <;> intro h
  · field_simp
    linear_combination h
  · field_simp at h
    linear_combination h

/-- A canonical register on the curve stands for a point of the group. -/
theorem exists_stands (ht : EpTrue s) {e : PointReg} (hok : EpOk s e) (hon : epOn s e = true) :
    ∃ P : s.curve.Point, Stands (s.epPt e) P := by
  obtain ⟨-, -, hz, -⟩ := hok
  by_cases h0 : e.z = 0
  · exact ⟨0, if_pos h0⟩
  · refine ⟨.some _ _ (nonsingular_of_equation (odd_of_good hg) ht.smooth ((epOn_iff hg hz h0).mp hon)), ?_⟩
    rw [epPt_of_ne hg hz h0]
    rfl

/-- A canonical register that stands for a point of the group is on the curve. -/
theorem epOn_of_stands {e : PointReg} (hok : EpOk s e) {P : s.curve.Point} (h : Stands (s.epPt e) P) :
    epOn s e = true := by
  obtain ⟨-, -, hz, -⟩ := hok
  by_cases h0 : e.z = 0
  · rw [epOn, h0, beq_self_eq_true, Bool.true_or]
  · rw [epOn_iff hg hz h0]
    rw [epPt_of_ne hg hz h0] at h
    cases P with
    | zero => cases h
    | some x y hns =>
      obtain ⟨hx, hy⟩ := Pt.aff.inj h
      rw [ZMod.val_injective _ hx, ZMod.val_injective _ hy]
      exact hns.1

/-! The registers of a point (45_ep R242, R243). -/

theorem epPt_scaled {x y lam : Nat} (hx : x < s.ctx.fpP) (hy : y < s.ctx.fpP) (hl : lam < s.ctx.fpP) (h0 : lam ≠ 0)
    (b : Bool) : s.epPt ⟨repFp s.build s.ctx.fpP (lam * lam * x % s.ctx.fpP),
      repFp s.build s.ctx.fpP (lam * lam * lam * y % s.ctx.fpP), repFp s.build s.ctx.fpP lam, b⟩ = .aff x y := by
  have hZ : coord s (repFp s.build s.ctx.fpP lam) = lam := coord_repFp hg hl
  have hlam : (lam : ZMod s.ctx.fpP) ≠ 0 := by rwa [Ne, cast_eq_zero hl]
  have hz := repFp_lt (b := s.build) hp.out.pos hl
  have hmod (n : Nat) : n % s.ctx.fpP < s.ctx.fpP := Nat.mod_lt _ hp.out.pos
  rw [epPt_of_ne hg hz (by rwa [Ne, ← coord_eq_zero hg hz, hZ]), Pt.aff.injEq]
  dsimp only
  rw [hZ, coord_repFp hg (hmod _), coord_repFp hg (hmod _)]
  refine ⟨(eq_val hx ?_).symm, (eq_val hy ?_).symm⟩ <;>
  · simp only [ZMod.natCast_mod, Nat.cast_mul]
    field_simp

theorem epPt_normal {x y : Nat} (hx : x < s.ctx.fpP) (hy : y < s.ctx.fpP) (b : Bool) :
    s.epPt ⟨repFp s.build s.ctx.fpP x, repFp s.build s.ctx.fpP y, s.ctx.fpOne, b⟩ = .aff x y := by
  have h := epPt_scaled hg hx hy hp.out.one_lt one_ne_zero b
  rwa [one_mul, one_mul, one_mul, one_mul, Nat.mod_eq_of_lt hx, Nat.mod_eq_of_lt hy, ← fpOne_eq_repFp hg] at h

/-- The form of a normalised register (45_ep R243, R255). -/
def Normalised (s : State) (e : PointReg) : Prop :=
  (s.epPt e = .inf → e = ⟨0, 0, 0, false⟩) ∧ (s.epPt e ≠ .inf → e.norm = true ∧ e.z = s.ctx.fpOne)

/-- What the normalised register of a point is. -/
theorem epNormal_spec {q : Pt} {P : s.curve.Point} (h : Stands q P) :
    ∃ e, s.epNormal q = some e ∧ EpOk s e ∧ s.epPt e = q ∧ Normalised s e := by
  cases P with
  | zero =>
    obtain rfl : q = .inf := h
    exact ⟨_, rfl, epOk_infinity hg, epPt_infinity, fun _ => rfl, fun hne => absurd epPt_infinity hne⟩
  | some x y hns =>
    obtain rfl : q = .aff x.val y.val := h
    have hpt := epPt_normal hg (ZMod.val_lt x) (ZMod.val_lt y) true
    refine ⟨_, rfl, epOk_normal hg (P := .aff x.val y.val) ⟨ZMod.val_lt x, ZMod.val_lt y⟩ rfl, hpt, fun hinf => ?_, fun _ => ⟨rfl, rfl⟩⟩
    cases hpt.symm.trans hinf

/-- What the representative of a point is that the free values choose (45_ep R244). -/
theorem epSome_spec {q : Pt} {P : s.curve.Point} (h : Stands q P) :
    ∃ e, s.epSome q = some e ∧ EpOk s e ∧ s.epPt e = q ∧ (q = .inf → e = ⟨0, 0, 0, false⟩) := by
  cases P with
  | zero =>
    obtain rfl : q = .inf := h
    exact ⟨_, rfl, epOk_infinity hg, epPt_infinity, fun _ => rfl⟩
  | some x y hns =>
    obtain rfl : q = .aff x.val y.val := h
    have hx := ZMod.val_lt x
    have hy := ZMod.val_lt y
    have h3 := three_le_fpP hg
    have hlam := Nat.mod_lt (s.draw 0) (show 0 < s.ctx.fpP - 1 by omega)
    have hok {e : PointReg} := epOk_some hg (P := .aff x.val y.val) ⟨hx, hy⟩ (e := e)
    unfold State.epSome epRepresentative at hok ⊢
    dsimp only at hok ⊢
    split at hok
    · rename_i hone
      rw [if_pos hone]
      exact ⟨_, rfl, hok rfl, epPt_normal hg hx hy true, nofun⟩
    · rename_i hone
      rw [if_neg hone]
      exact ⟨_, rfl, hok rfl, epPt_scaled hg hx hy (by omega) (by omega) false, nofun⟩

/-- `EP.NEG` writes the opposite point (45_ep R245). -/
theorem epPt_neg {e : PointReg} (hok : EpOk s e) : s.epPt (epNegReg s.ctx.fpP e) = s.epOps.neg (s.epPt e) := by
  obtain ⟨-, hy, hz, -⟩ := hok
  by_cases h0 : e.z = 0
  · rw [epNegReg, if_pos h0, epPt_infinity, show s.epPt e = .inf from if_pos h0]
    rfl
  · rw [epNegReg, if_neg h0, epPt_of_ne (e := e) hg hz h0,
      epPt_of_ne (e := ⟨e.x, negMod s.ctx.fpP e.y, e.z, e.norm⟩) hg hz h0]
    show Pt.aff _ _ = Pt.aff _ _
    rw [Pt.aff.injEq, coord_negMod hy]
    refine ⟨rfl, (eq_val (negMod_lt (ZMod.val_lt _)) ?_).symm⟩
    rw [cast_negMod (ZMod.val_lt _), ZMod.natCast_zmod_val, neg_mul]

/-- What the normalised register of a register's point is (45_ep R248). -/
theorem epNormReg_spec (ht : EpTrue s) {e : PointReg} (hok : EpOk s e) (hon : epOn s e = true) :
    ∃ x, s.epNormReg e = some x ∧ EpOk s x ∧ s.epPt x = s.epPt e ∧ Normalised s x := by
  obtain ⟨P, hP⟩ := exists_stands hg ht hok hon
  unfold State.epNormReg
  by_cases h0 : e.z = 0
  · rw [if_pos h0, show s.epPt e = .inf from if_pos h0]
    exact ⟨_, rfl, epOk_infinity hg, epPt_infinity, fun _ => rfl, fun hne => absurd epPt_infinity hne⟩
  · rw [if_neg h0]
    split
    · rename_i hnorm
      exact ⟨e, rfl, hok, rfl, fun hinf => absurd (z_eq_zero_of_inf hg hok.2.2.1 hinf) h0,
        fun _ => ⟨hnorm, hok.2.2.2 hnorm⟩⟩
    · exact epNormal_spec hg hP

omit hg hp in
/-- A normalised register is its own normalised register. -/
theorem epNormReg_of_normalised {e : PointReg} (h : Normalised s e) (hz : e.z = 0 → s.epPt e = .inf)
    (hz' : e.z ≠ 0 → s.epPt e ≠ .inf) : s.epNormReg e = some e := by
  unfold State.epNormReg
  by_cases h0 : e.z = 0
  · rw [if_pos h0, h.1 (hz h0)]
    rfl
  · rw [if_neg h0, if_pos (h.2 (hz' h0)).1]

end coordinates

/-! Running a command. -/

theorem epOk_iff {s : State} {e : PointReg} : EpOk s e ↔ epCanon s e = true := by
  rw [epCanon_iff, EpOk]
  push Not
  rfl

section commands

variable {s : State} (hg : FpGood s)
include hg

theorem epOk_fit {e : PointReg} (hok : EpOk s e) : e.fit s.build.W s.build.fpDigs = e := by
  obtain ⟨hx, hy, hz, -⟩ := hok
  rw [PointReg.fit, digits_fp hg hx, digits_fp hg hy, digits_fp hg hz]

theorem epChecks_pass {own : Bool} {es : List PointReg} {ks : List BigReg} (hown : own = true)
    (hes : ∀ e ∈ es, EpOk s e ∧ epOn s e = true) (hks : ∀ k ∈ ks, k ≠ ⟨true, 0⟩) :
    firstFault (epChecks s own es ks) = none := by
  rw [firstFault_eq_none, epChecks]
  simp only [List.forall_mem_cons, List.forall_mem_append, List.forall_mem_map]
  exact ⟨ready_of_good hg, hown, ⟨fun e he => epOk_iff.mp (hes e he).1, fun k hk => (canon_iff k).mpr (hks k hk)⟩,
    fun e he => (congrArg _ (hes e he).2).trans (Bool.or_true _)⟩

/-- What an `EP` command writes in a context that is true, its sources being canonical points of the curve. -/
theorem ep_writes (ht : epTrue s = true) {op : Nat} {own : Bool} {es : List PointReg} {ks : List BigReg}
    {w : State → State} {rd : Reg} {x : PointReg} {k : Nat} (hown : own = true)
    (hes : ∀ e ∈ es, EpOk s e ∧ epOn s e = true) (hks : ∀ k ∈ ks, k ≠ ⟨true, 0⟩)
    (hw : w s = s.epResult es rd (some x) k) (hx : EpOk s x) :
    ∃ t, command op (epChecks s own es ks) w s = .next t ∧ OnlyEp s t rd ∧ t.ep[rd] = x := by
  refine ⟨finish (s.epResult es rd (some x) k), ?_, onlyEp_epResult s rd es _ k, ?_⟩
  · rw [command_completes (epChecks_pass hg hown hes hks), hw]
  · have hon : es.all (epOn s) = true := List.all_eq_true.mpr fun e he => (hes e he).2
    have hres : s.epResult es rd (some x) k = (s.putEp rd x).drawn k := by
      simp [State.epResult, given, hon, ht]
    rw [finish_ep, hres, drawn_ep, putEp_same, epOk_fit hg hx]

end commands

/-- What `epTrue`, `epOn`, `epNormReg` and `EpOk` read of the state. -/
theorem ep_congr {s t : State} (hb : t.build = s.build) (hc : t.ctx = s.ctx) (e : PointReg) :
    epTrue t = epTrue s ∧ epOn t e = epOn s e ∧ t.epNormReg e = s.epNormReg e ∧ (EpOk t e ↔ EpOk s e) := by
  simp only [epTrue, epOn, State.epNormReg, State.epNormal, State.epPt, State.valFp, EpOk, hb, hc, and_self]

theorem exec_epNorm {s : State} (hg : FpGood s) (ht : epTrue s = true) {rd ra : Reg} {x : PointReg}
    (hok : EpOk s s.ep[ra]) (hon : epOn s s.ep[ra] = true) (hx : s.epNormReg s.ep[ra] = some x) (hxok : EpOk s x) :
    ∃ t, exec (.epNorm rd ra) s = .next t ∧ OnlyEp s t rd ∧ t.ep[rd] = x :=
  ep_writes hg ht (op := 0x63) rfl (by simpa using ⟨hok, hon⟩) (by simp)
    (w := fun s => s.epResult [s.ep[ra]] rd (s.epNormReg s.ep[ra]) 0) (by rw [hx]) hxok

/-- Settles O48. -/
theorem epDeterminedPointCommands : Obligations.EpDeterminedPointCommands := by
  unfold Obligations.EpDeterminedPointCommands
  intro s rd ra hg ht hcanon hon
  have hp : Fact (Nat.Prime s.ctx.fpP) := ⟨ht.prime⟩
  have htrue := epTrue_of_EpTrue ht
  have hok := epOk_iff.mpr hcanon
  constructor
  · obtain ⟨t, hexec, honly, hval⟩ := ep_writes hg htrue (op := 0x60) (own := true) (es := [s.ep[ra]]) (ks := [])
      rfl (by simpa using ⟨hok, hon⟩) (by simp) (rd := rd)
      (w := fun s => s.epResult [s.ep[ra]] rd (some (epNegReg s.ctx.fpP s.ep[ra])) 0) rfl (epOk_neg hg hok)
    refine ⟨t, hexec, honly, ?_, ?_⟩
    · rw [hval, epNegReg, negMod_eq hok.2.1]
      rfl
    · rw [hval, epPt_neg hg hok]
  · obtain ⟨x, hx, hxok, hpt, hnorm⟩ := epNormReg_spec hg ht hok hon
    obtain ⟨t, hexec, honly, hval⟩ := exec_epNorm hg htrue (rd := rd) hok hon hx hxok
    obtain ⟨P, hP⟩ := exists_stands hg ht hok hon
    have hxon : epOn s x = true := epOn_of_stands hg hxok (hpt ▸ hP)
    have hidem := epNormReg_of_normalised hnorm (fun h0 => if_pos h0) (mt (z_eq_zero_of_inf hg hxok.2.2.1))
    obtain ⟨htt, hton, htn, htok⟩ := ep_congr honly.1.build honly.1.ctx x
    obtain ⟨u, hexec', -, hval'⟩ := exec_epNorm (s := t) (rd := rd) (ra := rd) (x := x)
      (fpGood_exec hg hexec honly.1.ctx (by rw [honly.1.status])) (htt.trans htrue) (by rw [hval]; exact htok.mpr hxok)
      (by rw [hval, hton, hxon]) (by rw [hval, htn, hidem]) (htok.mpr hxok)
    refine ⟨t, u, hexec, hexec', honly, hval ▸ hpt, hval ▸ epOk_iff.mp hxok, hval'.trans hval.symm, fun h0 => ?_,
      fun h0 => ?_⟩
    · exact hval ▸ hnorm.1 (hpt.trans (if_pos h0))
    · exact hval ▸ hnorm.2 (hpt ▸ mt (z_eq_zero_of_inf hg hok.2.2.1) h0)

/-! Addition and doubling (45_ep R244, R246, R247). -/

/-- What a command leaves that writes a representative of a point of the group. -/
theorem ep_represents {s : State} (hg : FpGood s) (ht : EpTrue s) [Fact (Nat.Prime s.ctx.fpP)] {op : Nat}
    {es : List PointReg} {rd : Reg} {w : State → State} {R : Pt} {P : s.curve.Point}
    (hes : ∀ e ∈ es, EpOk s e ∧ epOn s e = true) (hw : w s = s.putEpSome es rd R) (hR : Stands R P) :
    ∃ t, command op (epChecks s true es []) w s = .next t ∧ OnlyEp s t rd ∧ epCanon s t.ep[rd] = true ∧
      s.epPt t.ep[rd] = R ∧ (R = .inf → t.ep[rd] = ⟨0, 0, 0, false⟩) := by
  obtain ⟨x, hx, hxok, hpt, hinf⟩ := epSome_spec hg hR
  obtain ⟨t, hexec, honly, rfl⟩ := ep_writes hg (epTrue_of_EpTrue ht) (op := op) (rd := rd) (k := 2) (ks := [])
    rfl hes (by simp) (hw.trans (by rw [State.putEpSome, hx])) hxok
  exact ⟨t, hexec, honly, epOk_iff.mp hxok, hpt, hinf⟩

/-- Settles O49. -/
theorem epRepresentatives : Obligations.EpRepresentatives := by
  unfold Obligations.EpRepresentatives
  intro s rd ra rb i R hg ht hca hona hcb honb hi
  have hp : Fact (Nat.Prime s.ctx.fpP) := ⟨ht.prime⟩
  have hops : OpsRel Stands s.epOps (groupOps s.curve.Point) := opsRel_prime (odd_of_good hg)
  have hoka := epOk_iff.mpr hca
  have hokb := epOk_iff.mpr hcb
  obtain ⟨P, hP⟩ := exists_stands hg ht hoka hona
  obtain ⟨Q, hQ⟩ := exists_stands hg ht hokb honb
  obtain hi | hi := hi <;> obtain ⟨rfl, rfl⟩ := Prod.mk.inj hi
  · exact ep_represents hg ht (op := 0x62) (es := [s.ep[ra], s.ep[rb]])
      (w := fun s => s.putEpSome [s.ep[ra], s.ep[rb]] rd (s.epOps.add (s.epPt s.ep[ra]) (s.epPt s.ep[rb]))) (by simpa using ⟨⟨hoka, hona⟩, hokb, honb⟩) rfl (hops.add hP hQ)
  · exact ep_represents hg ht (op := 0x61) (es := [s.ep[ra]])
      (w := fun s => s.putEpSome [s.ep[ra]] rd (s.epOps.dbl (s.epPt s.ep[ra]))) (by simpa using ⟨hoka, hona⟩) rfl (hops.dbl hP)

/-! Scalar multiplication (45_ep R255 to R268). -/

section multiplication

variable {s : State} (hg : FpGood s) [Fact (Nat.Prime s.ctx.fpP)]
include hg

theorem stands_mulBy (v : EpMul) (k : Nat) {q : Pt} {P : s.curve.Point} (h : Stands q P) :
    Stands (epMulBy v s.epOps s.build.epWidth k q) (k • P) := by
  have hops : OpsRel Stands s.epOps (groupOps s.curve.Point) := opsRel_prime (odd_of_good hg)
  have hw : 2 ≤ s.build.epWidth := (buildOk_of_wf hg.wf).epWidth.1
  unfold epMulBy
  split
  · rename_i h0
    have hzero : k • P = 0 := by
      obtain rfl | rfl := h0
      · exact zero_nsmul P
      · cases P with
        | zero => exact nsmul_zero k
        | some x y hns => cases h
    rw [hzero]
    rfl
  · cases v with
    | basic => exact mulBasic_group k P ▸ hops.mulBasic k h
    | lwnaf => exact mulLwnaf_group hw k P ▸ hops.mulLwnaf _ k h
    | rwnaf => exact mulRwnaf_group hw k P ▸ hops.mulRwnaf _ k h

theorem stands_mul (v : EpMul) (k : Int) {q : Pt} {P : s.curve.Point} (h : Stands q P) :
    Stands (mulSigned s.epOps (epMulBy v s.epOps s.build.epWidth) k q) (k • P) := by
  have hops : OpsRel Stands s.epOps (groupOps s.curve.Point) := opsRel_prime (odd_of_good hg)
  rw [← mulSigned_group (mul := fun k P => k • P) (fun _ _ => rfl)]
  exact hops.mulSigned (fun k {_ _} hP => stands_mulBy hg v k hP) k h

theorem stands_sim (v : SimMethod) (k l : Int) {q r : Pt} {P Q : s.curve.Point} (hP : Stands q P) (hQ : Stands r Q) :
    Stands (epSimBy v s.build.epMul s.epOps s.build.epWidth s.build.trickWidth k q l r) (k • P + l • Q) := by
  have hops : OpsRel Stands s.epOps (groupOps s.curve.Point) := opsRel_prime (odd_of_good hg)
  have hok := buildOk_of_wf hg.wf
  cases v with
  | basic => exact hops.add (stands_mul hg _ k hP) (stands_mul hg _ l hQ)
  | trick =>
    rw [← simSigned_group (fun k P l Q => simTrick_group hok.trickWidth.1 k l P Q)]
    exact hops.simSigned (fun k l {_ _ _ _} hP hQ => hops.simTrick _ k l hP hQ) k l hP hQ
  | inter =>
    rw [← simSigned_group (fun k P l Q => simInter_group hok.epWidth.1 k l P Q)]
    exact hops.simSigned (fun k l {_ _ _ _} hP hQ => hops.simInter _ k l hP hQ) k l hP hQ
  | joint =>
    rw [← simSigned_group (fun k P l Q => simJoint_group k l P Q)]
    exact hops.simSigned (fun k l {_ _ _ _} hP hQ => hops.simJoint k l hP hQ) k l hP hQ

/-- What a command leaves that writes the normalised register of a point of the group. -/
theorem ep_normalises (ht : EpTrue s) {op : Nat} {own : Bool} {es : List PointReg} {ks : List BigReg} {rd : Reg}
    {w : State → State} {R : Pt} {P : s.curve.Point} (hown : own = true) (hes : ∀ e ∈ es, EpOk s e ∧ epOn s e = true)
    (hks : ∀ k ∈ ks, k ≠ ⟨true, 0⟩) (hR : Stands R P) (hw : w s = s.epResult es rd (s.epNormal R) 0) :
    ∃ t, command op (epChecks s own es ks) w s = .next t ∧ OnlyEp s t rd ∧ Stands (s.epPt t.ep[rd]) P ∧
      epCanon s t.ep[rd] = true ∧ Normalised s t.ep[rd] := by
  obtain ⟨x, hx, hxok, hpt, hnorm⟩ := epNormal_spec hg hR
  obtain ⟨t, hexec, honly, rfl⟩ := ep_writes hg (epTrue_of_EpTrue ht) (op := op) (rd := rd) (k := 0) hown hes hks
    (hw.trans (by rw [hx])) hxok
  exact ⟨t, hexec, honly, hpt.symm ▸ hR, epOk_iff.mp hxok, hnorm⟩

end multiplication

theorem exec_epMul {i : Instr} {v : EpMul} {s : State} {rd ra rb : Reg}
    (hi : i = epMulOf v rd ra rb ∧ v ∈ s.build.epMulSet ∨ i = .epMul rd ra rb) :
    ∃ (own : Bool) (w : State → State) (v' : EpMul), own = true ∧
      exec i s = command 0x70 (epChecks s own [s.ep[ra]] [s.n[rb]]) w s ∧
      w s = s.epResult [s.ep[ra]] rd (s.epMulReg v' s.n[rb].val s.ep[ra]) 0 := by
  obtain ⟨rfl, hv⟩ | rfl := hi
  · refine ⟨decide (v ∈ s.build.epMulSet), fun s => s.epResult [s.ep[ra]] rd (s.epMulReg v s.n[rb].val s.ep[ra]) 0, v,
      decide_eq_true hv, ?_, rfl⟩
    cases v <;> rfl
  · exact ⟨true, fun s => s.epResult [s.ep[ra]] rd (s.epMulReg s.build.epMul s.n[rb].val s.ep[ra]) 0, _, rfl, rfl, rfl⟩

theorem exec_epSim {i : Instr} {v : SimMethod} {s : State} {rd ra rb rc re : Reg}
    (hi : i = epSimOf v rd ra rb rc re ∧ v ∈ s.build.epSimSet ∨ i = .epSim rd ra rb rc re) :
    ∃ (own : Bool) (w : State → State) (v' : SimMethod), own = true ∧
      exec i s = command 0x71 (epChecks s own [s.ep[ra], s.ep[rc]] [s.n[rb], s.n[re]]) w s ∧
      w s = s.epResult [s.ep[ra], s.ep[rc]] rd (s.epSimReg v' s.n[rb].val s.ep[ra] s.n[re].val s.ep[rc]) 0 := by
  obtain ⟨rfl, hv⟩ | rfl := hi
  · refine ⟨decide (v ∈ s.build.epSimSet), fun s => s.epResult [s.ep[ra], s.ep[rc]] rd
      (s.epSimReg v s.n[rb].val s.ep[ra] s.n[re].val s.ep[rc]) 0, v, decide_eq_true hv, ?_, rfl⟩
    cases v <;> rfl
  · exact ⟨true, fun s => s.epResult [s.ep[ra], s.ep[rc]] rd
      (s.epSimReg s.build.epSim s.n[rb].val s.ep[ra] s.n[re].val s.ep[rc]) 0, _, rfl, rfl, rfl⟩

/-- Settles O51. -/
theorem epScalarMultiplication : Obligations.EpScalarMultiplication := by
  unfold Obligations.EpScalarMultiplication
  intro s rd ra rb v i _ hg ht hcanon hon hk hi
  have hok := epOk_iff.mpr hcanon
  obtain ⟨P, hP⟩ := exists_stands hg ht hok hon
  obtain ⟨own, w, v', hown, hexec, hw⟩ := exec_epMul hi
  obtain ⟨t, hrun, honly, hpt, hc, hnorm⟩ := ep_normalises hg ht (op := 0x70) (own := own) (es := [s.ep[ra]])
    (ks := [s.n[rb]]) hown (by simpa using ⟨hok, hon⟩) (by simpa using hk) (stands_mul hg v' s.n[rb].val hP) hw
  exact ⟨t, P, hP, hexec.trans hrun, honly, hpt, hc, hnorm⟩

/-- Settles O52. -/
theorem epTwoScalarMultiplication : Obligations.EpTwoScalarMultiplication := by
  unfold Obligations.EpTwoScalarMultiplication
  intro s rd ra rb rc re v i _ hg ht hca hona hcc honc hk hl hi
  have hoka := epOk_iff.mpr hca
  have hokc := epOk_iff.mpr hcc
  obtain ⟨P, hP⟩ := exists_stands hg ht hoka hona
  obtain ⟨Q, hQ⟩ := exists_stands hg ht hokc honc
  obtain ⟨own, w, v', hown, hexec, hw⟩ := exec_epSim hi
  obtain ⟨t, hrun, honly, hpt, hc, hnorm⟩ := ep_normalises hg ht (op := 0x71) (own := own)
    (es := [s.ep[ra], s.ep[rc]]) (ks := [s.n[rb], s.n[re]]) hown (by simpa using ⟨⟨hoka, hona⟩, hokc, honc⟩)
    (by simpa using ⟨hk, hl⟩) (stands_sim hg v' s.n[rb].val s.n[re].val hP hQ) hw
  exact ⟨t, P, Q, hP, hQ, hexec.trans hrun, honly, hpt, hc, hnorm⟩

end Sys2Proof.Proofs.PrimeCurveCommands
end

section
/-! PROOFS. The binary-curve commands on one or two points (46_eb R280 to R288): the point that a register stands
for, the registers that stand for a point, the formulas of the group law, and what the commands write. -/

set_option Elab.async false

namespace Sys2Proof.Proofs.BinaryCurve

open Sys2Proof.Machine Sys2Proof.Laws Sys2Proof.Proofs.Context Sys2Proof.Proofs.Recoding Sys2Proof.Proofs.Frames
  Sys2Proof.Proofs.Faults Sys2Proof.Proofs.Step Sys2Proof.Proofs.BinaryPoly Sys2Proof.Proofs.BinaryField
  Sys2Proof.Proofs.BinaryFieldCommands Sys2Proof.Proofs.Inversion Sys2Proof.Proofs.Canonicity
  Sys2Proof.Proofs.CanonicalCommands

/-! The field of the context. -/

/-- The element that an integer stands for in the context's field (44_fb R200). -/
noncomputable abbrev ec (s : State) (v : Nat) : GF (fbPoly s) := el (fbPoly s) v

/-- y² + xy = x³ + ax² + b (46_eb R280). -/
def Curve (s : State) (x y : GF (fbPoly s)) : Prop :=
  y ^ 2 + x * y = x ^ 3 + ec s s.ctx.eb.a * x ^ 2 + ec s s.ctx.eb.b

/-- A point of the curve: infinity, or a pair of elements that meets the equation (46_eb R280). -/
def OnPt (s : State) : Pt → Prop
  | .inf => True
  | .aff x y => x < 2 ^ s.build.m ∧ y < 2 ^ s.build.m ∧ Curve s (ec s x) (ec s y)
  | .unknown => False

/-- A point whose coordinates are elements of the field. -/
def Known (s : State) (P : Pt) : Prop := P ≠ .unknown ∧ Below (2 ^ s.build.m) P

theorem known_of_onPt {s : State} {P : Pt} (h : OnPt s P) : Known s P := by
  cases P with
  | inf => exact ⟨nofun, trivial⟩
  | aff x y => exact ⟨nofun, h.1, h.2.1⟩
  | unknown => exact h.elim

section field

variable {s : State} (hg : FbGood s)
include hg

theorem ec_mul (a b : Nat) : ec s (s.mulFb a b) = ec s a * ec s b := el_fbMulP (le_fbPoly hg) (fbPoly_lt hg) a b

omit hg in
theorem ec_xor (a b : Nat) : ec s (a ^^^ b) = ec s a + ec s b := el_xor _ a b

omit hg in
theorem ec_one : ec s 1 = 1 := el_one _

theorem ec_inj {a b : Nat} (ha : a < 2 ^ s.build.m) (hb : b < 2 ^ s.build.m) : a = b ↔ ec s a = ec s b :=
  ⟨fun h => h ▸ rfl, el_inj (le_fbPoly hg) (fbPoly_lt hg) ha hb⟩

theorem ec_eq_zero {a : Nat} (ha : a < 2 ^ s.build.m) : ec s a = 0 ↔ a = 0 :=
  el_eq_zero (le_fbPoly hg) (fbPoly_lt hg) ha

theorem mul_one_fb {a : Nat} (ha : a < 2 ^ s.build.m) : s.mulFb a 1 = a :=
  (ec_inj hg (mulFb_lt hg _ _) ha).mpr (by rw [ec_mul hg, ec_one, mul_one])

theorem aff_eq {x y x' y' : Nat} (hx : x < 2 ^ s.build.m) (hy : y < 2 ^ s.build.m) (hx' : x' < 2 ^ s.build.m)
    (hy' : y' < 2 ^ s.build.m) (hex : ec s x = ec s x') (hey : ec s y = ec s y') : Pt.aff x y = Pt.aff x' y' := by
  rw [(ec_inj hg hx hx').mpr hex, (ec_inj hg hy hy').mpr hey]

/-- The projective equation (46_eb R281) as an equation of the field. -/
theorem ebOnCurve_iff (X Y Z : Nat) :
    ebOnCurve s.build.m (fbPoly s) s.ctx.eb.a s.ctx.eb.b X Y Z = true ↔
      ec s Y ^ 2 + ec s X * ec s Y * ec s Z =
        ec s X ^ 3 * ec s Z + ec s s.ctx.eb.a * (ec s X ^ 2 * ec s Z ^ 2) + ec s s.ctx.eb.b * ec s Z ^ 4 := by
  have hlt := mulFb_lt hg
  rw [ebOnCurve, beq_iff_eq]
  show s.mulFb Y Y ^^^ s.mulFb (s.mulFb X Y) Z = s.mulFb (s.mulFb (s.mulFb X X) X) Z ^^^
    s.mulFb s.ctx.eb.a (s.mulFb (s.mulFb X X) (s.mulFb Z Z)) ^^^
    s.mulFb s.ctx.eb.b (s.mulFb (s.mulFb Z Z) (s.mulFb Z Z)) ↔ _
  rw [ec_inj hg (Nat.xor_lt_two_pow (hlt _ _) (hlt _ _))
    (Nat.xor_lt_two_pow (Nat.xor_lt_two_pow (hlt _ _) (hlt _ _)) (hlt _ _))]
  simp only [ec_xor, ec_mul hg]
  ring_nf

theorem curve_iff (x y : Nat) : ebOnCurve s.build.m (fbPoly s) s.ctx.eb.a s.ctx.eb.b x y 1 = true ↔
    Curve s (ec s x) (ec s y) := by
  rw [ebOnCurve_iff hg, Curve, ec_one]
  ring_nf

variable [hf : Fact (Irreducible (toPoly (fbPoly s)))]

theorem invFb_ec {a : Nat} (ha : a < 2 ^ s.build.m) (h0 : a ≠ 0) :
    ∃ x, fbInvP s.build.m (fbPoly s) a = some x ∧ x < 2 ^ s.build.m ∧ ec s x = (ec s a)⁻¹ := by
  obtain ⟨x, hx, hlt, hmul⟩ := invBy_spec (le_fbPoly hg) (fbPoly_lt hg) (two_le_degree hg) (b := s.build) rfl
    ((buildOk_of_wf hg.wf).chain hg.unit) .exgcd nofun ha h0
  refine ⟨x, hx, hlt, eq_inv_of_mul_eq_one_right ?_⟩
  rw [← ec_mul hg, State.mulFb, hmul, ec_one]

/-! The point of a register (46_eb R282). -/

theorem ebPt_of_ne {e : PointReg} (hz : e.z < 2 ^ s.build.m) (h0 : e.z ≠ 0) :
    ∃ zi, zi < 2 ^ s.build.m ∧ ec s zi = (ec s e.z)⁻¹ ∧
      s.ebPt e = .aff (s.mulFb e.x zi) (s.mulFb e.y (s.mulFb zi zi)) := by
  obtain ⟨zi, hzi, hlt, hinv⟩ := invFb_ec hg hz h0
  refine ⟨zi, hlt, hinv, ?_⟩
  rw [State.ebPt, ebPoint, if_neg h0, hzi]
  rfl

/-- A register whose Z is invertible stands for (x, y) when X = xZ and Y = yZ². -/
theorem ebPt_eq {e : PointReg} (hz : e.z < 2 ^ s.build.m) (h0 : e.z ≠ 0) {x y : Nat} (hx : x < 2 ^ s.build.m)
    (hy : y < 2 ^ s.build.m) (hX : ec s e.x = ec s x * ec s e.z) (hY : ec s e.y = ec s y * ec s e.z ^ 2) :
    s.ebPt e = .aff x y := by
  obtain ⟨zi, -, hzi, hpt⟩ := ebPt_of_ne hg hz h0
  have hZ : ec s e.z ≠ 0 := by rwa [Ne, ec_eq_zero hg hz]
  rw [hpt]
  refine aff_eq hg (mulFb_lt hg _ _) (mulFb_lt hg _ _) hx hy ?_ ?_
  · rw [ec_mul hg, hzi, hX]
    field_simp
  · rw [ec_mul hg, ec_mul hg, hzi, hY]
    field_simp

omit hg hf in
theorem ebPt_infinity : s.ebPt PointReg.infinity = .inf := by
  rw [State.ebPt, ebPoint, if_pos (show PointReg.infinity.z = 0 from rfl)]

theorem z_eq_zero_of_inf {e : PointReg} (hz : e.z < 2 ^ s.build.m) (h : s.ebPt e = .inf) : e.z = 0 := by
  by_contra h0
  obtain ⟨zi, -, -, hpt⟩ := ebPt_of_ne hg hz h0
  cases hpt.symm.trans h

/-- A register is on the curve exactly when it stands for a point of the curve (46_eb R281, R282). -/
theorem ebOn_iff {e : PointReg} (hz : e.z < 2 ^ s.build.m) : ebOn s e = true ↔ OnPt s (s.ebPt e) := by
  by_cases h0 : e.z = 0
  · rw [show s.ebPt e = .inf from if_pos h0, ebOn, h0, beq_self_eq_true, Bool.true_or]
    exact iff_of_true rfl trivial
  · obtain ⟨zi, -, hzi, hpt⟩ := ebPt_of_ne hg hz h0
    have hZ : ec s e.z ≠ 0 := by rwa [Ne, ec_eq_zero hg hz]
    rw [hpt, ebOn, beq_eq_false_iff_ne.mpr h0, Bool.false_or, ebOnCurve_iff hg, OnPt, ec_mul hg, ec_mul hg, ec_mul hg,
      hzi, Curve]
    have hlt := mulFb_lt hg
    simp only [hlt, true_and]
    generalize ec s e.x = X, ec s e.y = Y, ec s s.ctx.eb.a = a, ec s s.ctx.eb.b = b
    constructor <;> intro h
    · field_simp
      linear_combination h
    · field_simp at h
      linear_combination h

/-! The group law (46_eb R280). -/

theorem ebSum_double {x y : Nat} (h : OnPt s (.aff x y)) :
    EbSum s (.aff x y) (.aff x y) (s.ebOps.dbl (.aff x y)) := by
  obtain ⟨hx, hy, -⟩ := h
  show EbSum s _ _ (ebDblPt s.build.m (fbPoly s) s.ctx.eb.a (.aff x y))
  rw [ebDblPt]
  by_cases h0 : x = 0
  · rw [if_pos h0]
    have hop := EbSum.opposite (s := s) x y
    rw [h0, Nat.zero_xor] at hop
    rwa [h0]
  · obtain ⟨xi, hxi, hlt, hinv⟩ := invFb_ec hg hx h0
    have hX : ec s x ≠ 0 := by rwa [Ne, ec_eq_zero hg hx]
    rw [if_neg h0, hxi]
    refine .double x y (x ^^^ s.mulFb y xi) _ _ h0 (Nat.xor_lt_two_pow hx (mulFb_lt hg _ _)) ?_ rfl rfl
    rw [ec_inj hg (mulFb_lt hg _ _) (Nat.xor_lt_two_pow (mulFb_lt hg _ _) hy), ec_mul hg, ec_xor, ec_xor, ec_mul hg,
      ec_mul hg, hinv]
    field_simp

/-- Two points of the curve with one abscissa are equal or opposite. -/
theorem eq_or_opposite {x y y' : Nat} (h : OnPt s (.aff x y)) (h' : OnPt s (.aff x y')) : y' = y ∨ y' = x ^^^ y := by
  obtain ⟨hx, hy, hc⟩ := h
  obtain ⟨-, hy', hc'⟩ := h'
  have hprod : (ec s y' + ec s y) * (ec s y' + ec s x + ec s y) = 0 := by
    rw [Curve] at hc hc'
    linear_combination hc' - hc + (ec s y + ec s y' + ec s x) * ec s y * gf_two
  rcases mul_eq_zero.mp hprod with h0 | h0
  · exact .inl ((ec_inj hg hy' hy).mpr (gf_eq_iff_add.mpr h0))
  · refine .inr ((ec_inj hg hy' (Nat.xor_lt_two_pow hx hy)).mpr ?_)
    rw [ec_xor, gf_eq_iff_add, ← add_assoc, h0]

/-- The operations of the model give the sums of the rule. -/
theorem ebSum_add {P Q : Pt} (hP : OnPt s P) (hQ : OnPt s Q) : EbSum s P Q (s.ebOps.add P Q) := by
  show EbSum s _ _ (ebAddPt s.build.m (fbPoly s) s.ctx.eb.a P Q)
  cases P with
  | unknown => exact hP.elim
  | inf =>
    rw [ebAddPt]
    exact .zeroLeft Q
  | aff x1 y1 =>
    cases Q with
    | unknown => exact hQ.elim
    | inf => exact .zeroRight _
    | aff x2 y2 =>
      rw [ebAddPt]
      split
      · rename_i hx
        subst hx
        split
        · rename_i hy
          subst hy
          exact ebSum_double hg hP
        · rename_i hy
          rcases eq_or_opposite hg hP hQ with rfl | rfl
          · exact absurd rfl hy
          · exact .opposite x1 y1
      · rename_i hx
        have hlt : x1 ^^^ x2 < 2 ^ s.build.m := Nat.xor_lt_two_pow hP.1 hQ.1
        have h0 : x1 ^^^ x2 ≠ 0 := by rwa [Ne, Nat.xor_eq_zero_iff]
        obtain ⟨di, hdi, -, hinv⟩ := invFb_ec hg hlt h0
        have hd : ec s (x1 ^^^ x2) ≠ 0 := by rwa [Ne, ec_eq_zero hg hlt]
        rw [hdi]
        refine .chord x1 y1 x2 y2 (s.mulFb (y1 ^^^ y2) di) _ _ hx (mulFb_lt hg _ _) ?_ rfl rfl
        rw [ec_inj hg (mulFb_lt hg _ _) (Nat.xor_lt_two_pow hP.2.1 hQ.2.1), ec_mul hg, ec_mul hg, hinv]
        field_simp

theorem ebSum_dbl {P : Pt} (hP : OnPt s P) : EbSum s P P (s.ebOps.dbl P) := by
  cases P with
  | unknown => exact hP.elim
  | inf => exact .zeroLeft _
  | aff x y => exact ebSum_double hg hP

omit hg hf in
theorem ebSum_ne_unknown {P Q R : Pt} (h : EbSum s P Q R) (hP : P ≠ .unknown) (hQ : Q ≠ .unknown) : R ≠ .unknown := by
  cases h with
  | zeroLeft => exact hQ
  | zeroRight => exact hP
  | opposite | double | chord => exact nofun

/-! The registers of a point (46_eb R282, R283). -/

/-- What the normalised register of a point is. -/
theorem ebNormal_spec {q : Pt} (h : Known s q) : ∃ e, ebNormal q = some e ∧ EbOk s e ∧ s.ebPt e = q := by
  cases q with
  | unknown => exact absurd rfl h.1
  | inf => exact ⟨_, rfl, ebOk_infinity, ebPt_infinity⟩
  | aff x y =>
    refine ⟨_, rfl, ebOk_normal hg h.2 rfl, ebPt_eq hg (one_lt_degree hg) one_ne_zero h.2.1 h.2.2 ?_ ?_⟩
    · rw [ec_one, mul_one]
    · rw [ec_one, one_pow, mul_one]

/-- What the representative of a point is that the free values choose (46_eb R283). -/
theorem ebSome_spec {q : Pt} (h : Known s q) :
    ∃ e, s.ebSome q = some e ∧ EbOk s e ∧ s.ebPt e = q ∧ (q = .inf → e = ⟨0, 0, 0, false⟩) := by
  cases q with
  | unknown => exact absurd rfl h.1
  | inf => exact ⟨_, rfl, ebOk_infinity, ebPt_infinity, fun _ => rfl⟩
  | aff x y =>
    have hone := one_lt_degree hg
    have hlam := Nat.mod_lt (s.draw 0) (show 0 < 2 ^ s.build.m - 1 by omega)
    have hok {e : PointReg} := ebOk_some hg h.2 (e := e)
    obtain ⟨e, he, -, hpt⟩ := ebNormal_spec hg h
    unfold State.ebSome ebRepresentative at hok ⊢
    dsimp only at hok ⊢
    split at hok
    · rename_i hmark
      rw [if_pos hmark]
      exact ⟨_, rfl, hok rfl, Option.some.inj he ▸ hpt, nofun⟩
    · rename_i hmark
      rw [if_neg hmark]
      refine ⟨_, rfl, hok rfl, ebPt_eq hg (by dsimp only; omega) (by dsimp only; omega) h.2.1 h.2.2 ?_ ?_, nofun⟩
      · exact (ec_mul hg _ _).trans (mul_comm _ _)
      · refine (ec_mul hg _ _).trans ((mul_comm _ _).trans ?_)
        rw [show fbSqrP s.build.m (fbPoly s) _ = s.mulFb _ _ from rfl, ec_mul hg, sq]

/-- `EB.NEG` writes the opposite point (46_eb R284). -/
theorem ebPt_neg {e : PointReg} (hok : EbOk s e) :
    s.ebPt (ebNegReg s.build.m (fbPoly s) e) = s.ebOps.neg (s.ebPt e) := by
  obtain ⟨hx, hy, hz, -⟩ := hok
  by_cases h0 : e.z = 0
  · rw [ebNegReg, if_pos h0, ebPt_infinity, show s.ebPt e = .inf from if_pos h0]
    rfl
  · obtain ⟨zi, -, hzi, hpt⟩ := ebPt_of_ne hg hz h0
    have hZ : ec s e.z ≠ 0 := by rwa [Ne, ec_eq_zero hg hz]
    have hlt := mulFb_lt hg
    rw [hpt, ebNegReg, if_neg h0]
    refine ebPt_eq (e := ⟨e.x, e.y ^^^ fbMulP s.build.m (fbPoly s) e.x e.z, e.z, e.norm⟩) hg hz h0
      (x := s.mulFb e.x zi) (y := s.mulFb e.x zi ^^^ s.mulFb e.y (s.mulFb zi zi)) (hlt _ _)
      (Nat.xor_lt_two_pow (hlt _ _) (hlt _ _)) ?_ ?_
    · rw [ec_mul hg, hzi]
      field_simp
    · rw [ec_xor, ec_xor, ec_mul hg, ec_mul hg, ec_mul hg, hzi, show fbMulP s.build.m (fbPoly s) e.x e.z =
        s.mulFb e.x e.z from rfl, ec_mul hg]
      field_simp
      ring

/-- `EB.FRB` writes the image under φ (46_eb R288). -/
theorem ebPt_frb {e : PointReg} (hok : EbOk s e) :
    s.ebPt (ebFrbReg s.build.m (fbPoly s) e) = s.frob (s.ebPt e) := by
  obtain ⟨hx, hy, hz, -⟩ := hok
  by_cases h0 : e.z = 0
  · rw [ebFrbReg, if_pos h0, ebPt_infinity, show s.ebPt e = .inf from if_pos h0]
    rfl
  · obtain ⟨zi, -, hzi, hpt⟩ := ebPt_of_ne hg hz h0
    have hZ : ec s e.z ≠ 0 := by rwa [Ne, ec_eq_zero hg hz]
    have hlt := mulFb_lt hg
    have hsqr (a : Nat) : fbSqrP s.build.m (fbPoly s) a = s.mulFb a a := rfl
    have h0' : s.mulFb e.z e.z ≠ 0 := by
      rw [Ne, ← ec_eq_zero hg (hlt _ _), ec_mul hg]
      exact mul_ne_zero hZ hZ
    rw [hpt, ebFrbReg, if_neg h0]
    refine ebPt_eq hg (hlt _ _) h0' (hlt _ _) (hlt _ _) ?_ ?_ <;>
    · simp only [hsqr, ec_mul hg, hzi]
      field_simp

/-- What the normalised register of a register's point is (46_eb R287). -/
theorem ebNormReg_spec {e : PointReg} (hok : EbOk s e) : ∃ x, s.ebNormReg e = some x ∧ EbOk s x ∧
    s.ebPt x = s.ebPt e ∧ s.ebNormReg x = some x ∧ (e.z = 0 → x = ⟨0, 0, 0, false⟩) ∧
    (e.z ≠ 0 → ∃ zi, zi < 2 ^ s.build.m ∧ s.mulFb e.z zi = 1 ∧
      x = ⟨s.mulFb e.x zi, s.mulFb e.y (s.mulFb zi zi), 1, true⟩) := by
  have hone := one_lt_degree hg
  unfold State.ebNormReg
  by_cases h0 : e.z = 0
  · rw [if_pos h0, show s.ebPt e = .inf from if_pos h0]
    exact ⟨_, rfl, ebOk_infinity, ebPt_infinity, rfl, fun _ => rfl, fun h => absurd h0 h⟩
  · rw [if_neg h0]
    split
    · rename_i hnorm
      have hz1 := hok.2.2.2 hnorm
      refine ⟨e, rfl, hok, rfl, by rw [if_neg h0, if_pos hnorm], fun h => absurd h h0, fun _ => ⟨1, hone, ?_, ?_⟩⟩
      · rw [hz1, mul_one_fb hg hone]
      · obtain ⟨ex, ey, ez, en⟩ := e
        obtain ⟨hx, hy, -, -⟩ := hok
        obtain rfl : ez = 1 := hz1
        obtain rfl : en = true := hnorm
        rw [mul_one_fb hg hone, mul_one_fb hg hx, mul_one_fb hg hy]
    · obtain ⟨zi, hlt, hzi, hpt⟩ := ebPt_of_ne hg hok.2.2.1 h0
      have hZ : ec s e.z ≠ 0 := by rwa [Ne, ec_eq_zero hg hok.2.2.1]
      rw [hpt]
      obtain ⟨x, hx, hxok, hxpt⟩ := ebNormal_spec hg (q := .aff (s.mulFb e.x zi) (s.mulFb e.y (s.mulFb zi zi)))
        ⟨nofun, mulFb_lt hg _ _, mulFb_lt hg _ _⟩
      obtain rfl := Option.some.inj hx
      refine ⟨_, rfl, hxok, hxpt, rfl, fun h => absurd h h0, fun _ => ⟨zi, hlt, ?_, rfl⟩⟩
      rw [ec_inj hg (mulFb_lt hg _ _) hone, ec_mul hg, hzi, ec_one, mul_inv_cancel₀ hZ]

end field

/-! Running a command. -/

theorem ebOk_iff {s : State} {e : PointReg} : EbOk s e ↔ ebCanon s e = true := by
  rw [ebCanon_iff, EbOk]
  push Not
  rfl

section commands

variable {s : State} (hg : FbGood s)
include hg

theorem ebOk_fit {e : PointReg} (hok : EbOk s e) : e.fit s.build.W s.build.fbDigs = e := by
  obtain ⟨hx, hy, hz, -⟩ := hok
  rw [PointReg.fit, digits_fb hg hx, digits_fb hg hy, digits_fb hg hz]

theorem ebReady_of_true (ht : EbTrue s) : ebReady s = true :=
  (ebReady_iff s).mpr ⟨⟨hg.unit, hg.init⟩, ht.ordinary⟩

omit hg in
theorem ebChecks_pass (hr : ebReady s = true) {own : Bool} {es : List PointReg} {ks : List BigReg} (hown : own = true)
    (hes : ∀ e ∈ es, EbOk s e ∧ ebOn s e = true) (hks : ∀ k ∈ ks, k ≠ ⟨true, 0⟩) :
    firstFault (ebChecks s own es ks) = none := by
  rw [firstFault_eq_none, ebChecks]
  simp only [List.forall_mem_cons, List.forall_mem_append, List.forall_mem_map]
  exact ⟨hr, hown, ⟨fun e he => ebOk_iff.mp (hes e he).1, fun k hk => (canon_iff k).mpr (hks k hk)⟩,
    fun e he => (congrArg _ (hes e he).2).trans (Bool.or_true _)⟩

/-- What an `EB` command writes in a context that is true, its sources being canonical points of the curve. -/
theorem eb_writes (hr : ebReady s = true) (ht : ebTrue s = true) {op : Nat} {own : Bool} {es : List PointReg}
    {ks : List BigReg} {w : State → State} {rd : Reg} {x : PointReg} {k : Nat} (hown : own = true)
    (hes : ∀ e ∈ es, EbOk s e ∧ ebOn s e = true) (hks : ∀ k ∈ ks, k ≠ ⟨true, 0⟩)
    (hw : w s = s.ebResult es rd (some x) k) (hx : EbOk s x) :
    ∃ t, command op (ebChecks s own es ks) w s = .next t ∧ OnlyEb s t rd ∧ t.eb[rd] = x := by
  refine ⟨finish (s.ebResult es rd (some x) k), ?_, onlyEb_ebResult s rd es _ k, ?_⟩
  · rw [command_completes (ebChecks_pass hr hown hes hks), hw]
  · have hon : es.all (ebOn s) = true := List.all_eq_true.mpr fun e he => (hes e he).2
    have hres : s.ebResult es rd (some x) k = (s.putEb rd x).drawn k := by
      simp [State.ebResult, given, hon, ht]
    rw [finish_eb, hres, drawn_eb, putEb_same, ebOk_fit hg hx]

theorem fact_field (ht : EbTrue s) : Fact (Irreducible (toPoly (fbPoly s))) :=
  fact_irreducible ht.field (by have := two_le_degree hg; omega)

theorem exec_ebNorm (hr : ebReady s = true) (ht : ebTrue s = true) {rd ra : Reg} {x : PointReg}
    (hok : EbOk s s.eb[ra]) (hon : ebOn s s.eb[ra] = true) (hx : s.ebNormReg s.eb[ra] = some x) (hxok : EbOk s x) :
    ∃ t, exec (.ebNorm rd ra) s = .next t ∧ OnlyEb s t rd ∧ t.eb[rd] = x :=
  eb_writes hg hr ht (op := 0x83) rfl (by simpa using ⟨hok, hon⟩) (by simp)
    (w := fun s => s.ebResult [s.eb[ra]] rd (s.ebNormReg s.eb[ra]) 0) (by rw [hx]) hxok

end commands

/-- A context that is good stays so through a command. -/
theorem fbGood_exec {s t : State} {i : Instr} (h : FbGood s) (he : exec i s = .next t) (hctx : t.ctx = s.ctx)
    (hinit : t.status.init = s.status.init) : FbGood t where
  wf := (build_exec he).symm ▸ h.wf
  fits := fits_exec h.fits he
  sound := ctxSound_of_eq h.sound hinit hctx (build_exec he)
  unit := (build_exec he).symm ▸ h.unit
  init := hinit.trans h.init

/-- What the tests, `ebNormReg` and `EbOk` read of the state. -/
theorem eb_congr {s t : State} (hb : t.build = s.build) (hc : t.ctx = s.ctx) (hi : t.status.init = s.status.init)
    (e : PointReg) : ebReady t = ebReady s ∧ ebTrue t = ebTrue s ∧ ebOn t e = ebOn s e ∧
      t.ebNormReg e = s.ebNormReg e ∧ (EbOk t e ↔ EbOk s e) := by
  simp only [ebReady, fbReady, ebTrue, fbTrue, ebOn, State.ebNormReg, State.ebPt, fbPoly, EbOk, hb, hc, hi, and_self]

/-- Settles O53. -/
theorem ebDeterminedPointCommands : Obligations.EbDeterminedPointCommands := by
  unfold Obligations.EbDeterminedPointCommands
  intro s rd ra hg ht hcanon hon
  have hf := fact_field hg ht
  have htrue := ebTrue_of_EbTrue ht
  have hready := ebReady_of_true hg ht
  have hok := ebOk_iff.mpr hcanon
  refine ⟨?_, ?_, fun hk => ?_, fun hk => ?_⟩
  · obtain ⟨t, hexec, honly, hval⟩ := eb_writes hg hready htrue (op := 0x80) (own := true) (es := [s.eb[ra]]) (ks := [])
      rfl (by simpa using ⟨hok, hon⟩) (by simp) (rd := rd)
      (w := fun s => s.ebResult [s.eb[ra]] rd (some (ebNegReg s.build.m (fbPoly s) s.eb[ra])) 0) rfl (ebOk_neg hg hok)
    exact ⟨t, hexec, honly, hval, hval ▸ ebPt_neg hg hok⟩
  · obtain ⟨x, hx, hxok, hpt, hidem, hzero, hne⟩ := ebNormReg_spec hg hok
    obtain ⟨t, hexec, honly, hval⟩ := exec_ebNorm hg hready htrue (rd := rd) hok hon hx hxok
    have hxon : ebOn s x = true := by rw [ebOn_iff hg hxok.2.2.1, hpt, ← ebOn_iff hg hok.2.2.1, hon]
    have hinit : t.status.init = s.status.init := by rw [honly.1.status]
    obtain ⟨htr, htt, hton, htn, htok⟩ := eb_congr honly.1.build honly.1.ctx hinit x
    obtain ⟨u, hexec', -, hval'⟩ := exec_ebNorm (s := t) (rd := rd) (ra := rd) (x := x)
      (fbGood_exec hg hexec honly.1.ctx hinit) (htr.trans hready) (htt.trans htrue) (by rw [hval]; exact htok.mpr hxok)
      (by rw [hval, hton, hxon]) (by rw [hval, htn, hidem]) (htok.mpr hxok)
    exact ⟨t, u, hexec, hexec', honly, hval ▸ hpt, hval ▸ ebOk_iff.mp hxok, hval'.trans hval.symm, hval ▸ hzero,
      hval ▸ hne⟩
  · obtain ⟨t, hexec, honly, hval⟩ := eb_writes hg hready htrue (op := 0x84) (own := s.ctx.ebFlags.kbltz)
      (es := [s.eb[ra]]) (ks := []) hk (by simpa using ⟨hok, hon⟩) (by simp) (rd := rd)
      (w := fun s => s.ebResult [s.eb[ra]] rd (some (ebFrbReg s.build.m (fbPoly s) s.eb[ra])) 0) rfl (ebOk_frb hg hok)
    exact ⟨t, hexec, honly, hval, hval ▸ ebPt_frb hg hok⟩
  · dsimp only [exec]
    refine command_faults ?_
    simp only [ebChecks, firstFault, needConfig, hready, hk, if_true, Bool.false_eq_true, if_false]

/-! Addition and doubling (46_eb R283, R285, R286). -/

/-- What a command leaves that writes a representative of a sum of two points. -/
theorem eb_represents {s : State} (hg : FbGood s) (ht : EbTrue s) {op : Nat} {es : List PointReg} {rd : Reg}
    {w : State → State} {P Q R : Pt} (hes : ∀ e ∈ es, EbOk s e ∧ ebOn s e = true) (hw : w s = s.putEbSome es rd R)
    (hP : OnPt s P) (hQ : OnPt s Q) (hsum : EbSum s P Q R) (hR : Below (2 ^ s.build.m) R) :
    ∃ t, command op (ebChecks s true es []) w s = .next t ∧ OnlyEb s t rd ∧ ebCanon s t.eb[rd] = true ∧
      EbSum s P Q (s.ebPt t.eb[rd]) ∧ (s.ebPt t.eb[rd] = .inf → t.eb[rd] = ⟨0, 0, 0, false⟩) := by
  have hf := fact_field hg ht
  obtain ⟨x, hx, hxok, rfl, hinf⟩ := ebSome_spec hg
    ⟨ebSum_ne_unknown hsum (known_of_onPt hP).1 (known_of_onPt hQ).1, hR⟩
  obtain ⟨t, hexec, honly, rfl⟩ := eb_writes hg (ebReady_of_true hg ht) (ebTrue_of_EbTrue ht) (op := op) (rd := rd)
    (k := 2) (ks := []) rfl hes (by simp) (hw.trans (by rw [State.putEbSome, hx])) hxok
  exact ⟨t, hexec, honly, ebOk_iff.mp hxok, hsum, hinf⟩

/-- Settles O54. -/
theorem ebRepresentatives : Obligations.EbRepresentatives := by
  unfold Obligations.EbRepresentatives
  intro s rd ra rb i Q hg ht hca hona hcb honb hi
  have hf := fact_field hg ht
  have hoka := ebOk_iff.mpr hca
  have hokb := ebOk_iff.mpr hcb
  have hA := (ebOn_iff hg hoka.2.2.1).mp hona
  have hB := (ebOn_iff hg hokb.2.2.1).mp honb
  have hclosed := Canonicity.ebOps_below hg
  obtain hi | hi := hi <;> obtain ⟨rfl, rfl⟩ := Prod.mk.inj hi
  · exact eb_represents hg ht (op := 0x82) (es := [s.eb[ra], s.eb[rb]])
      (w := fun s => s.putEbSome [s.eb[ra], s.eb[rb]] rd (s.ebOps.add (s.ebPt s.eb[ra]) (s.ebPt s.eb[rb])))
      (by simpa using ⟨⟨hoka, hona⟩, hokb, honb⟩) rfl hA hB (ebSum_add hg hA hB)
      (hclosed.add (Q := ()) (Q' := ()) (ebPt_below hg _) (ebPt_below hg _))
  · exact eb_represents hg ht (op := 0x81) (es := [s.eb[ra]])
      (w := fun s => s.putEbSome [s.eb[ra]] rd (s.ebOps.dbl (s.ebPt s.eb[ra])))
      (by simpa using ⟨hoka, hona⟩) rfl hA hA (ebSum_dbl hg hA) (hclosed.dbl (Q := ()) (ebPt_below hg _))

end Sys2Proof.Proofs.BinaryCurve
end

section
/-! PROOFS. The López-Dahab ladder (46_eb R302): with the points of the curve a group, the pair of fractions that it
carries are the abscissas of [j]P and [j + 1]P. -/

set_option Elab.async false

namespace Sys2Proof.Proofs.Ladder

open Sys2Proof.Machine Sys2Proof.Laws Sys2Proof.Proofs.Loops Sys2Proof.Proofs.BinaryPoly
  Sys2Proof.Proofs.BinaryField Sys2Proof.Proofs.BinaryFieldCommands Sys2Proof.Proofs.BinaryCurve

/-- The fraction `A.1 / A.2` is the abscissa of a point, 1/0 that of infinity (46_eb R302). -/
def Abscissa (s : State) (q : Pt) (A : Nat × Nat) : Prop :=
  A.2 < 2 ^ s.build.m ∧
  match q with
  | .inf => ec s A.1 ≠ 0 ∧ ec s A.2 = 0
  | .aff x _ => ec s A.2 ≠ 0 ∧ ec s A.1 = ec s x * ec s A.2
  | .unknown => False

/-- The bits of k below the top one, and the top one. -/
theorem top_bit {k : Nat} (hk : k ≠ 0) : 2 ^ (bitlen k - 1) + k % 2 ^ (bitlen k - 1) = k := by
  have h := mulBasic_group (A := Int) k 1
  rw [mulBasic, if_neg hk, mulBits_group, ← add_smul, nsmul_one, nsmul_one] at h
  exact_mod_cast h

/-- What is an abscissa depends on the elements only. -/
theorem abscissa_congr {s : State} {q : Pt} {A B : Nat × Nat} (h : Abscissa s q A) (hlt : B.2 < 2 ^ s.build.m)
    (h1 : ec s A.1 = ec s B.1) (h2 : ec s A.2 = ec s B.2) : Abscissa s q B := by
  obtain ⟨-, h⟩ := h
  rw [h1, h2] at h
  exact ⟨hlt, h⟩

section field

variable {s : State} (hg : FbGood s)
include hg

/-- `fbSqrP` is the square of the field. -/
theorem ec_sqr (a : Nat) : ec s (fbSqrP s.build.m (fbPoly s) a) = ec s a ^ 2 := el_fbSqrP (le_fbPoly hg) (fbPoly_lt hg) a

theorem ec_fbMulP (a b : Nat) : ec s (fbMulP s.build.m (fbPoly s) a b) = ec s a * ec s b := ec_mul hg a b

variable {A B : Nat × Nat} {x : Nat}

theorem ladderDbl_fst : ec s (ladderDbl s.build.m (fbPoly s) s.ctx.eb.b A).1 =
    ec s A.1 ^ 4 + ec s s.ctx.eb.b * ec s A.2 ^ 4 := by
  simp only [ladderDbl, ec_xor, ec_sqr hg, ec_fbMulP hg]
  ring

theorem ladderDbl_snd : ec s (ladderDbl s.build.m (fbPoly s) s.ctx.eb.b A).2 = ec s A.1 ^ 2 * ec s A.2 ^ 2 := by
  simp only [ladderDbl, ec_sqr hg, ec_fbMulP hg]

theorem ladderAdd_snd : ec s (ladderAdd s.build.m (fbPoly s) x A B).2 =
    (ec s A.1 * ec s B.2 + ec s B.1 * ec s A.2) ^ 2 := by
  simp only [ladderAdd, ec_xor, ec_sqr hg, ec_fbMulP hg]

theorem ladderAdd_fst : ec s (ladderAdd s.build.m (fbPoly s) x A B).1 =
    ec s x * ec s (ladderAdd s.build.m (fbPoly s) x A B).2 + ec s A.1 * ec s B.2 * (ec s B.1 * ec s A.2) := by
  simp only [ladderAdd, ec_xor, ec_fbMulP hg]

variable [hf : Fact (Irreducible (toPoly (fbPoly s)))]

/-! Doubling. -/

omit hg in
/-- The abscissa of the double of (x, y) is (x⁴ + b)/x². -/
theorem abscissa_double {x y lam x3 : GF (fbPoly s)} (hc : Curve s x y) (hlam : lam * x = x * x + y)
    (hx3 : x3 = lam * lam + lam + ec s s.ctx.eb.a) : x3 * x ^ 2 = x ^ 4 + ec s s.ctx.eb.b := by
  have h2 := gf_two (f := fbPoly s)
  rw [Curve] at hc
  grind

theorem abscissa_dbl {q q' r : Pt} (h : EbSum s q q' r) (heq : q = q') (hq : OnPt s q) (hb : s.ctx.eb.b ≠ 0)
    (hA : Abscissa s q A) : Abscissa s r (ladderDbl s.build.m (fbPoly s) s.ctx.eb.b A) := by
  refine ⟨mulFb_lt hg _ _, ?_⟩
  have hb' : ec s s.ctx.eb.b ≠ 0 := by rwa [Ne, ec_eq_zero hg (fbStaged_of_good hg).curve.2.1]
  have hinf (hA : Abscissa s .inf A) : ec s (ladderDbl s.build.m (fbPoly s) s.ctx.eb.b A).1 ≠ 0 ∧
      ec s (ladderDbl s.build.m (fbPoly s) s.ctx.eb.b A).2 = 0 := by
    obtain ⟨-, h1, h2⟩ := hA
    rw [ladderDbl_fst hg, ladderDbl_snd hg, h2]
    exact ⟨by simpa using h1, by ring⟩
  cases h with
  | zeroLeft => exact heq ▸ hinf hA
  | zeroRight => exact heq ▸ hinf (heq ▸ hA)
  | opposite x y =>
    obtain ⟨-, hZ, hX⟩ := hA
    have hx : ec s x = 0 := by
      have hy := congrArg (ec s) (Pt.aff.inj heq).2
      rw [ec_xor] at hy
      linear_combination -hy
    show _ ≠ _ ∧ _ = _
    rw [ladderDbl_fst hg, ladderDbl_snd hg, hX, hx]
    refine ⟨?_, by ring⟩
    rw [zero_mul, zero_pow four_ne_zero, zero_add]
    exact mul_ne_zero hb' (pow_ne_zero 4 hZ)
  | double x y lam x3 y3 hx0 hlam hslope hx3 hy3 =>
    obtain ⟨-, hZ, hX⟩ := hA
    have hx : ec s x ≠ 0 := by rwa [Ne, ec_eq_zero hg hq.1]
    have hslope' := congrArg (ec s) hslope
    have hx3' := congrArg (ec s) hx3
    simp only [ec_xor, ec_mul hg] at hslope' hx3'
    have habs := abscissa_double hq.2.2 hslope' hx3'
    show _ ≠ _ ∧ _ = _
    rw [ladderDbl_fst hg, ladderDbl_snd hg, hX]
    refine ⟨mul_ne_zero (pow_ne_zero 2 (mul_ne_zero hx hZ)) (pow_ne_zero 2 hZ), ?_⟩
    linear_combination -ec s A.2 ^ 4 * habs
  | chord x1 y1 x2 y2 lam x3 y3 hne => exact absurd (Pt.aff.inj heq).1 hne

/-! Addition of two points whose difference is P. -/

omit hg in
/-- The abscissas of the sum and of the difference of two points (46_eb R302). -/
theorem abscissa_sum {x1 y1 x2 y2 lam lam' x3 x : GF (fbPoly s)}
    (hlam : lam * (x1 + x2) = y1 + y2) (hx3 : x3 = lam * lam + lam + x1 + x2 + ec s s.ctx.eb.a)
    (hlam' : lam' * (x1 + x2) = x1 + y1 + y2) (hx : x = lam' * lam' + lam' + x1 + x2 + ec s s.ctx.eb.a) :
    (x3 + x) * (x1 + x2) ^ 2 = x1 * x2 := by
  have htwo := gf_two (f := fbPoly s)
  grind

theorem ladderAdd_cross {x1 x2 : Nat} (hA : ec s A.1 = ec s x1 * ec s A.2) (hB : ec s B.1 = ec s x2 * ec s B.2) :
    ec s (ladderAdd s.build.m (fbPoly s) x A B).2 = (ec s x1 + ec s x2) ^ 2 * (ec s A.2 * ec s B.2) ^ 2 ∧
      ec s (ladderAdd s.build.m (fbPoly s) x A B).1 =
        (ec s x * (ec s x1 + ec s x2) ^ 2 + ec s x1 * ec s x2) * (ec s A.2 * ec s B.2) ^ 2 := by
  rw [ladderAdd_fst hg, ladderAdd_snd hg, hA, hB]
  constructor <;> ring

/-- The sum of two points that are not infinity, from their abscissas and that of their difference. -/
theorem abscissa_add_affine {x1 y1 x2 y2 y : Nat} {r : Pt} (hsum : EbSum s (.aff x1 y1) (.aff x2 y2) r)
    (hdiff : EbSum s (.aff x1 (x1 ^^^ y1)) (.aff x2 y2) (.aff x y)) (hne : Pt.aff x1 y1 ≠ .aff x2 y2)
    (h1 : OnPt s (.aff x1 y1)) (h2 : OnPt s (.aff x2 y2)) (hA : Abscissa s (.aff x1 y1) A)
    (hB : Abscissa s (.aff x2 y2) B) : Abscissa s r (ladderAdd s.build.m (fbPoly s) x A B) := by
  refine ⟨mulFb_lt hg _ _, ?_⟩
  obtain ⟨-, hA0, hA⟩ := hA
  obtain ⟨-, hB0, hB⟩ := hB
  obtain ⟨hZ, hX⟩ := ladderAdd_cross hg (x := x) hA hB
  have hZ0 : (ec s A.2 * ec s B.2) ^ 2 ≠ 0 := pow_ne_zero 2 (mul_ne_zero hA0 hB0)
  cases hsum with
  | double => exact absurd rfl hne
  | opposite =>
    have hx1 : ec s x1 ≠ 0 := by
      rw [Ne, ec_eq_zero hg h1.1]
      rintro rfl
      exact hne (by rw [Nat.zero_xor])
    show _ ≠ _ ∧ _ = _
    rw [hX, hZ, gf_add_self]
    refine ⟨mul_ne_zero ?_ hZ0, by ring⟩
    rw [zero_pow two_ne_zero, mul_zero, zero_add]
    exact mul_ne_zero hx1 hx1
  | chord _ _ _ _ lam x3 y3 hx12 hlam hslope hx3 hy3 =>
    have hd : ec s x1 + ec s x2 ≠ 0 := by rwa [Ne, ← gf_eq_iff_add, ← ec_inj hg h1.1 h2.1]
    have hslope1 := congrArg (ec s) hslope
    have hx3' := congrArg (ec s) hx3
    simp only [ec_xor, ec_mul hg] at hslope1 hx3'
    cases hdiff with
    | double => exact absurd rfl hx12
    | chord _ _ _ _ lam' _ _ _ hlam' hslope' hx' hy' =>
      have hslope2 := congrArg (ec s) hslope'
      have hxx := congrArg (ec s) hx'
      simp only [ec_xor, ec_mul hg] at hslope2 hxx
      have hid := abscissa_sum hslope1 hx3' hslope2 hxx
      show _ ≠ _ ∧ _ = _
      rw [hX, hZ]
      refine ⟨mul_ne_zero (pow_ne_zero 2 hd) hZ0, ?_⟩
      have htwo := gf_two (f := fbPoly s)
      linear_combination -(ec s A.2 * ec s B.2) ^ 2 * hid +
        (ec s A.2 * ec s B.2) ^ 2 * (ec s x * (ec s x1 + ec s x2) ^ 2) * htwo

omit hg in
/-- The ordinate of a point Q from its abscissa and those of P and P + Q (46_eb R302). -/
theorem ordinate_eq {x y x1 y1 x2 lam : GF (fbPoly s)} (h : Curve s x y) (h1 : Curve s x1 y1)
    (hlam : lam * (x1 + x) = y1 + y) (hx2 : x2 = lam * lam + lam + x1 + x + ec s s.ctx.eb.a) :
    (y1 + y) * x = (x1 + x) * ((x1 + x) * (x2 + x) + x ^ 2 + y) := by
  have htwo := gf_two (f := fbPoly s)
  rw [Curve] at h h1
  grind

theorem ladderEnd_affine {y x1 y1 x2 y2 : Nat} (hsum : EbSum s (.aff x1 y1) (.aff x y) (.aff x2 y2))
    (hPc : OnPt s (.aff x y)) (hQc : OnPt s (.aff x1 y1)) (hx0 : x ≠ 0) (hA : Abscissa s (.aff x1 y1) A)
    (hB : Abscissa s (.aff x2 y2) B) : ladderEnd s.build.m (fbPoly s) x y A B = .aff x1 y1 := by
  obtain ⟨hA2, hA0, hA1⟩ := hA
  obtain ⟨hB2, hB0, hB1⟩ := hB
  have hA0' : A.2 ≠ 0 := by rwa [Ne, ← ec_eq_zero hg hA2]
  have hB0' : B.2 ≠ 0 := by rwa [Ne, ← ec_eq_zero hg hB2]
  have hx : ec s x ≠ 0 := by rwa [Ne, ec_eq_zero hg hPc.1]
  obtain ⟨z1, hz1, -, hi1⟩ := invFb_ec hg hA2 hA0'
  obtain ⟨z2, hz2, -, hi2⟩ := invFb_ec hg hB2 hB0'
  obtain ⟨xi, hxi, -, hi⟩ := invFb_ec hg hPc.1 hx0
  have hlt := mulFb_lt hg
  have hX1 : ec s A.1 * (ec s A.2)⁻¹ = ec s x1 := by rw [hA1, mul_inv_cancel_right₀ hA0]
  have hX2 : ec s B.1 * (ec s B.2)⁻¹ = ec s x2 := by rw [hB1, mul_inv_cancel_right₀ hB0]
  have hord : (ec s y1 + ec s y) * ec s x =
      (ec s x1 + ec s x) * ((ec s x1 + ec s x) * (ec s x2 + ec s x) + ec s x ^ 2 + ec s y) := by
    cases hsum with
    | double => rw [gf_add_self, gf_add_self, zero_mul, zero_mul]
    | chord _ _ _ _ lam _ _ hne hlam hslope hx2 hy2 =>
      have hslope' := congrArg (ec s) hslope
      have hx2' := congrArg (ec s) hx2
      simp only [ec_xor, ec_mul hg] at hslope' hx2'
      exact ordinate_eq hPc.2.2 hQc.2.2 hslope' hx2'
  rw [ladderEnd, if_neg hA0', if_neg hB0', hz1, hz2, hxi]
  refine aff_eq hg (hlt _ _) (Nat.xor_lt_two_pow (hlt _ _) hPc.2.1) hQc.1 hQc.2.1 ?_ ?_
  · rw [ec_fbMulP hg, hi1, hX1]
  · simp only [ec_xor, ec_fbMulP hg, ec_sqr hg, hi1, hi2, hi, hX1, hX2]
    rw [← hord, mul_inv_cancel_right₀ hx, add_assoc, gf_add_self, add_zero]

end field

section group

variable {s : State} (hg : FbGood s) [hf : Fact (Irreducible (toPoly (fbPoly s)))] {G : Type} [AddCommGroup G]
  {g : G → Pt} (hgrp : EbGroup s G g)
include hgrp

omit hf in
theorem g_zero : g 0 = .inf := hgrp.image.zero

omit hf in
theorem g_eq_inf {P : G} : g P = .inf ↔ P = 0 :=
  ⟨fun h => hgrp.inj (h.trans (g_zero hgrp).symm), fun h => h ▸ g_zero hgrp⟩

omit hf in
theorem g_neg {P : G} {x y : Nat} (h : g P = .aff x y) : g (-P) = .aff x (x ^^^ y) := by
  rw [hgrp.image.neg, h]
  rfl

omit hf in
theorem g_ne_unknown (P : G) : g P ≠ .unknown := by
  intro h
  have hadd := hgrp.image.add P (-P)
  rw [add_neg_cancel, g_zero hgrp, hgrp.image.neg, h] at hadd
  cases hadd

omit hf in
theorem g_affine {P : G} (h : P ≠ 0) : ∃ x y, g P = .aff x y := by
  cases hP : g P with
  | inf => exact absurd ((g_eq_inf hgrp).mp hP) h
  | unknown => exact absurd hP (g_ne_unknown hgrp P)
  | aff x y => exact ⟨x, y, rfl⟩

include hg

omit hf in
theorem onPt_of_group (P : G) : OnPt s (g P) := by
  cases h : g P with
  | inf => exact trivial
  | unknown => exact absurd h (g_ne_unknown hgrp P)
  | aff x y =>
    obtain ⟨hx, hy, hc⟩ := hgrp.curve P x y h
    exact ⟨hx, hy, (curve_iff hg x y).mp hc⟩

theorem sum_of_group (P Q : G) : EbSum s (g P) (g Q) (g (P + Q)) := by
  rw [hgrp.image.add]
  exact ebSum_add hg (onPt_of_group hg hgrp P) (onPt_of_group hg hgrp Q)

variable {P : G} {x y : Nat} (hP : g P = .aff x y)
include hP

theorem abscissa_add {Q : G} {A B : Nat × Nat} (hA : Abscissa s (g Q) A) (hB : Abscissa s (g (Q + P)) B) :
    Abscissa s (g (Q + (Q + P))) (ladderAdd s.build.m (fbPoly s) x A B) := by
  have hlt : (ladderAdd s.build.m (fbPoly s) x A B).2 < 2 ^ s.build.m := mulFb_lt hg _ _
  by_cases hQ0 : Q = 0
  · obtain ⟨-, hA⟩ := hA
    obtain ⟨-, hB⟩ := hB
    rw [hQ0, g_zero hgrp] at hA
    rw [hQ0, zero_add, hP] at hB
    rw [hQ0, zero_add, zero_add, hP]
    refine ⟨hlt, ?_⟩
    show _ ≠ _ ∧ _ = _
    rw [ladderAdd_fst hg, ladderAdd_snd hg, hA.2, mul_zero, add_zero, mul_zero, add_zero]
    exact ⟨pow_ne_zero 2 (mul_ne_zero hA.1 hB.1), rfl⟩
  by_cases hQP0 : Q + P = 0
  · obtain ⟨-, hA⟩ := hA
    obtain ⟨-, hB⟩ := hB
    have hQ := g_neg hgrp hP
    rw [← eq_neg_of_add_eq_zero_left hQP0] at hQ
    rw [hQ] at hA
    rw [hQP0, g_zero hgrp] at hB
    rw [hQP0, add_zero, hQ]
    refine ⟨hlt, ?_⟩
    show _ ≠ _ ∧ _ = _
    rw [ladderAdd_fst hg, ladderAdd_snd hg, hB.2, mul_zero, zero_add, zero_mul, add_zero]
    exact ⟨pow_ne_zero 2 (mul_ne_zero hB.1 hA.1), rfl⟩
  obtain ⟨x1, y1, hQ⟩ := g_affine hgrp hQ0
  obtain ⟨x2, y2, hQP⟩ := g_affine hgrp hQP0
  have hsum := sum_of_group hg hgrp Q (Q + P)
  have hdiff := sum_of_group hg hgrp (-Q) (Q + P)
  rw [neg_add_cancel_left, hP, g_neg hgrp hQ, hQP] at hdiff
  have hQc := onPt_of_group hg hgrp Q
  have hQPc := onPt_of_group hg hgrp (Q + P)
  have hne : g Q ≠ g (Q + P) := fun h => by
    have hP0 : P = 0 := by simpa using hgrp.inj h
    rw [hP0, g_zero hgrp] at hP
    cases hP
  rw [hQ] at hA hsum hQc hne
  rw [hQP] at hB hsum hQPc hne
  exact abscissa_add_affine hg hsum hdiff hne hQc hQPc hA hB

/-- The loop of 46_eb R302. -/
theorem ladderLoop_spec (hb : s.ctx.eb.b ≠ 0) (k t : Nat) : ∀ {Q : G} {A B : Nat × Nat}, Abscissa s (g Q) A →
    Abscissa s (g (Q + P)) B →
    Abscissa s (g (2 ^ t • Q + (k % 2 ^ t) • P)) (ladderLoop s.build.m (fbPoly s) s.ctx.eb.b x k t A B).1 ∧
      Abscissa s (g (2 ^ t • Q + (k % 2 ^ t) • P + P)) (ladderLoop s.build.m (fbPoly s) s.ctx.eb.b x k t A B).2 := by
  induction t with
  | zero =>
    intro Q A B hA hB
    rw [pow_zero, one_smul, Nat.mod_one, zero_smul, add_zero]
    exact ⟨hA, hB⟩
  | succ t ih =>
    intro Q A B hA hB
    have hsplit : k % 2 ^ (t + 1) = k % 2 ^ t + 2 ^ t * (k / 2 ^ t % 2) := by rw [pow_succ, Nat.mod_mul]
    have hdouble {R : G} {C : Nat × Nat} (hC : Abscissa s (g R) C) :=
      abscissa_dbl hg (sum_of_group hg hgrp R R) rfl (onPt_of_group hg hgrp R) hb hC
    have hadd := abscissa_add hg hgrp hP hA hB
    rw [ladderLoop, hsplit, pow_succ, add_smul, mul_smul, mul_smul, two_smul]
    split
    · rename_i hbit
      have hB' := hdouble hB
      rw [show Q + P + (Q + P) = Q + (Q + P) + P by abel] at hB'
      have hrec := ih hadd hB'
      rwa [hbit, one_smul, show 2 ^ t • (Q + Q) + ((k % 2 ^ t) • P + 2 ^ t • P) =
        2 ^ t • (Q + (Q + P)) + (k % 2 ^ t) • P by rw [← add_assoc Q Q P, smul_add _ (Q + Q) P]; abel]
    · rename_i hbit
      rw [← add_assoc] at hadd
      have hrec := ih (hdouble hA) hadd
      rwa [show k / 2 ^ t % 2 = 0 by omega, zero_smul, smul_zero, add_zero]

/-- The end of the ladder: from the abscissas of Q and Q + P to Q (46_eb R302). -/
theorem ladderEnd_spec (hx0 : x ≠ 0) {Q : G} {A B : Nat × Nat} (hA : Abscissa s (g Q) A)
    (hB : Abscissa s (g (Q + P)) B) : ladderEnd s.build.m (fbPoly s) x y A B = g Q := by
  by_cases hQ0 : Q = 0
  · obtain ⟨hlt, hA⟩ := hA
    rw [hQ0, g_zero hgrp] at hA ⊢
    rw [ladderEnd, if_pos ((ec_eq_zero hg hlt).mp hA.2)]
  obtain ⟨x1, y1, hQ⟩ := g_affine hgrp hQ0
  rw [hQ] at hA
  have hA0 : A.2 ≠ 0 := by
    rw [Ne, ← ec_eq_zero hg hA.1]
    exact hA.2.1
  by_cases hQP0 : Q + P = 0
  · obtain ⟨hlt, hB⟩ := hB
    rw [hQP0, g_zero hgrp] at hB
    rw [ladderEnd, if_neg hA0, if_pos ((ec_eq_zero hg hlt).mp hB.2), eq_neg_of_add_eq_zero_left hQP0, g_neg hgrp hP]
    rfl
  obtain ⟨x2, y2, hQP⟩ := g_affine hgrp hQP0
  have hsum := sum_of_group hg hgrp Q P
  have hPc := onPt_of_group hg hgrp P
  have hQc := onPt_of_group hg hgrp Q
  rw [hQ, hP, hQP] at hsum
  rw [hP] at hPc
  rw [hQP] at hB
  rw [hQ] at hQc ⊢
  exact ladderEnd_affine hg hsum hPc hQc hx0 hA hB

/-- The ladder is [k]P (46_eb R302). -/
theorem ladder_spec (hx0 : x ≠ 0) (hb : s.ctx.eb.b ≠ 0) {k : Nat} (hk : k ≠ 0) :
    mulLodah s.build.m (fbPoly s) s.ctx.eb.a s.ctx.eb.b k (.aff x y) = g (k • P) := by
  have hone : ec s 1 = 1 := ec_one
  have hxlt : x < 2 ^ s.build.m := (hgrp.curve P x y hP).1
  have hA : Abscissa s (g P) (x, 1) := by
    rw [hP]
    refine ⟨CanonicalCommands.one_lt_degree hg, ?_, ?_⟩ <;> dsimp only <;> rw [hone]
    · exact one_ne_zero
    · rw [mul_one]
  have hstart := abscissa_dbl hg (sum_of_group hg hgrp P P) rfl (onPt_of_group hg hgrp P) hb hA
  have hB : Abscissa s (g (P + P)) (fbSqrP s.build.m (fbPoly s) (fbSqrP s.build.m (fbPoly s) x) ^^^ s.ctx.eb.b,
      fbSqrP s.build.m (fbPoly s) x) := by
    refine abscissa_congr hstart (mulFb_lt hg _ _) ?_ ?_
    · rw [ladderDbl_fst hg, ec_xor, ec_sqr hg, ec_sqr hg, hone]
      ring
    · rw [ladderDbl_snd hg, ec_sqr hg, hone]
      ring
  obtain ⟨hA', hB'⟩ := ladderLoop_spec hg hgrp hP hb k (bitlen k - 1) hA hB
  rw [← add_smul, top_bit hk] at hA' hB'
  have hcond : ¬((k : Int) ≤ 0 ∨ x = 0) := by omega
  rw [mulLodah, if_neg hcond]
  exact ladderEnd_spec hg hgrp hP hx0 hA' hB'

omit hP in
theorem mulLodah_spec (hb : s.ctx.eb.b ≠ 0) (k : Int) (P : G) :
    mulLodah s.build.m (fbPoly s) s.ctx.eb.a s.ctx.eb.b k (g P) = g (k • P) := by
  have hops := opsRel_of_image hgrp.image
  cases hP : g P with
  | unknown => exact absurd hP (g_ne_unknown hgrp P)
  | inf =>
    rw [(g_eq_inf hgrp).mp hP, smul_zero, g_zero hgrp]
    rfl
  | aff x y =>
    by_cases hk : k ≤ 0 ∨ x = 0
    · rw [mulLodah, if_pos hk, ← mulSigned_group (mul := mulBasic (groupOps G)) mulBasic_group]
      exact hops.mulSigned (fun k {_ _} h => hops.mulBasic k h) k hP.symm
    · rw [not_or, not_le] at hk
      obtain ⟨n, rfl⟩ := Int.eq_ofNat_of_zero_le hk.1.le
      rw [ladder_spec hg hgrp hP hk.2 hb (by omega), natCast_zsmul]

end group

end Sys2Proof.Proofs.Ladder
end

section
/-! PROOFS. Scalar multiplication on the binary curve (46_eb R289, R298 to R313): halving in a group of odd order, and
every method as [k]P of the group of points. -/

set_option Elab.async false

namespace Sys2Proof.Proofs.BinaryMultiplication

open Sys2Proof.Machine Sys2Proof.Laws Sys2Proof.Proofs.Context Sys2Proof.Proofs.Recoding Sys2Proof.Proofs.Frames
  Sys2Proof.Proofs.Faults Sys2Proof.Proofs.Loops Sys2Proof.Proofs.BinaryPoly Sys2Proof.Proofs.BinaryFieldCommands
  Sys2Proof.Proofs.CanonicalCommands Sys2Proof.Proofs.BinaryCurve Sys2Proof.Proofs.Ladder

/-! The digits of the loop of 46_eb R303. -/

/-- The first t digits, zeros where there are fewer. -/
def padTo (t : Nat) (ds : List Int) : List Int := (ds ++ List.replicate (t - ds.length) 0).take t

theorem padTo_length (t : Nat) (ds : List Int) : (padTo t ds).length = t := by
  rw [padTo, List.length_take, List.length_append, List.length_replicate]
  omega

theorem padTo_trit {t : Nat} {ds : List Int} (h : ∀ d ∈ ds, d = -1 ∨ d = 0 ∨ d = 1) :
    ∀ d ∈ padTo t ds, d = -1 ∨ d = 0 ∨ d = 1 := by
  intro d hd
  rcases List.mem_append.mp (List.mem_of_mem_take hd) with hd | hd
  · exact h d hd
  · exact .inr (.inl (List.eq_of_mem_replicate hd))

theorem padTo_succ_cons (t : Nat) (d : Int) (ds : List Int) : padTo (t + 1) (d :: ds) = d :: padTo t ds := by
  rw [padTo, List.length_cons, Nat.add_sub_add_right, List.cons_append, List.take_succ_cons, padTo]

theorem binaryValue_replicate (n : Nat) : binaryValue (List.replicate n 0) = 0 := by
  induction n with
  | zero => rfl
  | succ n ih => rw [List.replicate_succ, binaryValue, ih, mul_zero, add_zero]

/-- At most one digit lies above the first t. -/
theorem binaryValue_padTo {t : Nat} : ∀ {ds : List Int}, ds.length ≤ t + 1 →
    binaryValue ds = binaryValue (padTo t ds) + 2 ^ t * ds.getD t 0 := by
  induction t with
  | zero =>
    intro ds h
    match ds, h with
    | [], _ => rfl
    | [d], _ => simp [binaryValue, padTo]
  | succ t ih =>
    intro ds h
    cases ds with
    | nil => simp [padTo, binaryValue_replicate, binaryValue]
    | cons d ds =>
      rw [padTo_succ_cons, binaryValue, binaryValue, ih (Nat.le_of_succ_le_succ h), List.getD_cons_succ]
      ring

/-! Elements of odd order. -/

section odd

variable {G : Type} [AddCommGroup G] {P : G} {r : Nat}

/-- Doubling is injective on the elements that an odd number kills. -/
theorem eq_zero_of_two_pow {Q : G} (hr : r % 2 = 1) (hQ : r • Q = 0) {j : Nat} (h : 2 ^ j • Q = 0) : Q = 0 := by
  have hco : Nat.Coprime (2 ^ j) r := (Nat.coprime_two_left.mpr (Nat.odd_iff.mpr hr)).pow_left j
  have h1 : addOrderOf Q ∣ 1 := hco ▸ Nat.dvd_gcd (addOrderOf_dvd_of_nsmul_eq_zero h) (addOrderOf_dvd_of_nsmul_eq_zero hQ)
  exact AddMonoid.addOrderOf_eq_one_iff.mp (Nat.dvd_one.mp h1)

/-- Halving in a group where r, odd, kills every element (46_eb R289). -/
def halfOf (r : Nat) (Q : G) : G := ((r + 1) / 2) • Q

/-- A step of the loop of 46_eb R303. -/
theorem halveLoop_cons {d : Int} (hd : d = -1 ∨ d = 0 ∨ d = 1) (ds : List Int) (Q : G) :
    halveLoop (groupOps G) (halfOf r) P (d :: ds) Q = halveLoop (groupOps G) (halfOf r) P ds (halfOf r Q + d • P) := by
  rw [halveLoop]
  congr 1
  dsimp only [groupOps]
  obtain rfl | rfl | rfl := hd <;> simp

variable (hP : r • P = 0)
include hP

theorem killed_of_mem {Q : G} (hQ : Q ∈ AddSubgroup.zmultiples P) : r • Q = 0 := by
  obtain ⟨z, rfl⟩ := AddSubgroup.mem_zmultiples_iff.mp hQ
  rw [smul_comm, hP, smul_zero]

theorem exists_nsmul_of_mem (hr : r % 2 = 1) {Q : G} (hQ : Q ∈ AddSubgroup.zmultiples P) : ∃ j : Nat, Q = j • P := by
  obtain ⟨z, rfl⟩ := AddSubgroup.mem_zmultiples_iff.mp hQ
  have hnonneg : 0 ≤ z % (r : Int) := Int.emod_nonneg z (by omega)
  refine ⟨(z % r).toNat, ?_⟩
  rw [← natCast_zsmul, Int.toNat_of_nonneg hnonneg]
  conv_lhs => rw [← Int.mul_ediv_add_emod z r, add_smul, mul_smul, smul_comm, natCast_zsmul, hP, smul_zero, zero_add]

/-- The half of an element (46_eb R289). -/
theorem double_half (hr : r % 2 = 1) {Q : G} (hQ : Q ∈ AddSubgroup.zmultiples P) : 2 • halfOf r Q = Q := by
  rw [halfOf, ← mul_smul, show 2 * ((r + 1) / 2) = r + 1 by omega, add_smul, killed_of_mem hP hQ, one_smul, zero_add]

/-- The loop of 46_eb R303: after t digits 2^t times the result is what it started from plus twice the value. -/
theorem halveLoop_spec (hr : r % 2 = 1) (ds : List Int) : ∀ {Q : G}, (∀ d ∈ ds, d = -1 ∨ d = 0 ∨ d = 1) →
    Q ∈ AddSubgroup.zmultiples P → halveLoop (groupOps G) (halfOf r) P ds Q ∈ AddSubgroup.zmultiples P ∧
      2 ^ ds.length • halveLoop (groupOps G) (halfOf r) P ds Q = Q + (2 * binaryValue ds) • P := by
  induction ds with
  | nil =>
    intro Q _ hQ
    refine ⟨hQ, ?_⟩
    show 2 ^ 0 • Q = Q + (2 * 0 : Int) • P
    rw [mul_zero, zero_smul, add_zero, pow_zero, one_smul]
  | cons d ds ih =>
    intro Q hds hQ
    rw [List.forall_mem_cons] at hds
    have hmem : halfOf r Q + d • P ∈ AddSubgroup.zmultiples P :=
      AddSubgroup.add_mem _ (AddSubgroup.nsmul_mem _ hQ _)
        (AddSubgroup.zsmul_mem _ (AddSubgroup.mem_zmultiples P) d)
    obtain ⟨hrec, hval⟩ := ih hds.2 hmem
    rw [halveLoop_cons hds.1]
    refine ⟨hrec, ?_⟩
    rw [List.length_cons, pow_succ', mul_smul, hval, smul_add, smul_add, double_half hP hr hQ, binaryValue]
    module

/-- Halving multiplies: 2^(t−1) times the result is [2^(t−1)·k mod n]P, for t the bit length of n (46_eb R303). -/
theorem mulHalve_spec (hr : r % 2 = 1) {n : Nat} (hn : 1 < n) (k : Int) :
    mulHalve (groupOps G) (halfOf r) n k P ∈ AddSubgroup.zmultiples P ∧
      2 ^ (bitlen n - 1) • mulHalve (groupOps G) (halfOf r) n k P =
        ((2 ^ (bitlen n - 1) * k) % (n : Int)) • P := by
  have hself := AddSubgroup.mem_zmultiples P
  have ht : bitlen n = bitlen n - 1 + 1 := by
    have : bitlen n ≠ 0 := fun h0 => by
      have := lt_two_pow_bitlen n
      rw [h0] at this
      omega
    omega
  have hnonneg : 0 ≤ (2 ^ (bitlen n - 1) * k) % (n : Int) := Int.emod_nonneg _ (by omega)
  have hlt : (2 ^ (bitlen n - 1) * k) % (n : Int) < n := Int.emod_lt_of_pos _ (by omega)
  generalize hc : (2 ^ (bitlen n - 1) * k) % (n : Int) = c at hnonneg hlt
  obtain ⟨c, rfl⟩ := Int.eq_ofNat_of_zero_le hnonneg
  have hclt : c < n := by exact_mod_cast hlt
  have hlen : (naf 2 c).length ≤ bitlen n + 1 := by
    have := naf_length 2 c
    have := bitlen_le_iff.mpr (hclt.trans (lt_two_pow_bitlen n))
    omega
  have htrit : ∀ d ∈ naf 2 c, d = -1 ∨ d = 0 ∨ d = 1 := fun d hd => by
    rcases naf_tableDigit le_rfl c d hd with h | ⟨h, h'⟩ <;> omega
  have hvalue := naf_value (w := 2) one_le_two c
  have hmul : mulHalve (groupOps G) (halfOf r) n k P =
      halveLoop (groupOps G) (halfOf r) P (padTo (bitlen n) (naf 2 c)) 0 + (2 * (naf 2 c).getD (bitlen n) 0) • P := by
    simp only [mulHalve, hc, Int.toNat_natCast, mulSigned_group mulBasic_group]
    split
    · rename_i h0
      rw [h0, mul_zero, zero_smul, add_zero]
      rfl
    · rfl
  obtain ⟨hmem, hloop⟩ := halveLoop_spec hP hr (padTo (bitlen n) (naf 2 c)) (Q := 0)
    (padTo_trit htrit) (AddSubgroup.zero_mem _)
  rw [padTo_length, zero_add, ht, pow_succ, mul_smul, ← ht] at hloop
  rw [hmul]
  refine ⟨AddSubgroup.add_mem _ hmem (AddSubgroup.zsmul_mem _ hself _), ?_⟩
  rw [← sub_eq_zero]
  refine eq_zero_of_two_pow hr (killed_of_mem hP (AddSubgroup.sub_mem _ (AddSubgroup.nsmul_mem _
    (AddSubgroup.add_mem _ hmem (AddSubgroup.zsmul_mem _ hself _)) _) (AddSubgroup.zsmul_mem _ hself _))) (j := 1) ?_
  have hpow : (2 : Int) ^ bitlen n = 2 ^ (bitlen n - 1) * 2 := by rw [← pow_succ, ← ht]
  rw [binaryValue_padTo hlen, hpow] at hvalue
  rw [← hvalue, smul_sub, smul_add, smul_add, pow_one, smul_comm (2 : Nat) (2 ^ (bitlen n - 1) : Nat), hloop]
  module

end odd

/-! Finding an odd number that kills a point (46_eb R289). -/

section order

variable {G : Type} [AddCommGroup G] {o : PtOps Pt} {g : G → Pt} (himg : GroupImage o G g)
  (hinj : ∀ P, g P = .inf ↔ P = 0)

theorem oddPart_spec (fuel : Nat) : ∀ {e : Nat}, e ≠ 0 → e ≤ fuel →
    oddPart fuel e % 2 = 1 ∧ ∃ j, e = 2 ^ j * oddPart fuel e := by
  induction fuel with
  | zero => intro e h0 h; omega
  | succ fuel ih =>
    intro e h0 h
    rw [oddPart]
    split
    · rename_i he
      obtain ⟨hodd, j, hj⟩ := ih (e := e / 2) (by omega) (by omega)
      refine ⟨hodd, j + 1, ?_⟩
      rw [pow_succ', mul_assoc, ← hj]
      omega
    · exact ⟨by omega, 0, by rw [pow_zero, one_mul]⟩

include himg hinj

theorem mulBasic_eq_inf {P : G} {k : Nat} : mulBasic o k (g P) = .inf ↔ k • P = 0 := by
  rw [(opsRel_of_image himg).mulBasic k rfl, mulBasic_group, hinj]

theorem oddOrderFrom_spec {P : G} {r : Nat} (hr : r % 2 = 1) (hP : r • P = 0) (fuel : Nat) : ∀ {q : Nat}, q % 2 = 1 →
    q ≤ r → r < q + 2 * fuel → ∃ e, oddOrderFrom o (g P) fuel q = some e ∧ e % 2 = 1 ∧ e • P = 0 := by
  induction fuel with
  | zero => intro q _ h1 h2; omega
  | succ fuel ih =>
    intro q hq h1 h2
    rw [oddOrderFrom]
    split
    · rename_i he
      exact ⟨q, rfl, hq, (mulBasic_eq_inf himg hinj).mp he⟩
    · rename_i he
      have hne : q ≠ r := fun h => he ((mulBasic_eq_inf himg hinj).mpr (h ▸ hP))
      exact ih (by omega) (by omega) (by omega)

/-- A point of odd order has an odd exponent that the model finds. -/
theorem oddExponent_spec {m : Nat} {es : List Nat} {P : G} {r : Nat} (hr : r % 2 = 1) (hP : r • P = 0)
    (hbound : r < 2 ^ (m + 2) ∨ r ∈ es) (hP' : g P ≠ .unknown) :
    ∃ e, oddExponent o m es (g P) = some e ∧ e % 2 = 1 ∧ e • P = 0 := by
  unfold oddExponent
  split
  · rename_i e he
    have hkill := List.find?_some he
    rw [Bool.and_eq_true, bne_iff_ne, beq_iff_eq, mulBasic_eq_inf himg hinj] at hkill
    obtain ⟨hodd, j, hj⟩ := oddPart_spec e hkill.1 le_rfl
    have hzero : oddPart e e • P = 0 := by
      refine eq_zero_of_two_pow (r := r) hr (by rw [smul_comm, hP, smul_zero]) (j := j) ?_
      rw [← mul_smul, ← hj, hkill.2]
    rw [if_pos ((mulBasic_eq_inf himg hinj).mpr hzero)]
    exact ⟨_, rfl, hodd, hzero⟩
  · rename_i hnone
    rw [if_neg hP']
    refine oddOrderFrom_spec himg hinj hr hP _ rfl (by omega) ?_
    obtain hlt | hmem := hbound
    · have hpow : 2 ^ (m + 2) = 2 * 2 ^ (m + 1) := pow_succ' 2 (m + 1)
      omega
    · have := List.find?_eq_none.mp hnone r hmem
      rw [Bool.and_eq_true, bne_iff_ne, beq_iff_eq, mulBasic_eq_inf himg hinj] at this
      exact absurd ⟨by omega, hP⟩ this

end order

/-! The methods (46_eb R298 to R304, R308 to R312). -/

section methods

variable {s : State} (hg : FbGood s) {G : Type} [AddCommGroup G] {g : G → Pt} (hgrp : EbGroup s G g)
include hgrp

theorem oddOrder_spec {P : G} {r : Nat} (hr : r % 2 = 1) (hP : r • P = 0)
    (hbound : r < 2 ^ (s.build.m + 2) ∨ r = s.ctx.eb.n) :
    ∃ e, s.oddOrder (g P) = some e ∧ e % 2 = 1 ∧ e • P = 0 :=
  oddExponent_spec hgrp.image (fun _ => g_eq_inf hgrp) hr hP
    (hbound.imp_right fun h => List.mem_cons.mpr (.inl h)) (g_ne_unknown hgrp P)

theorem halfBy_spec (r : Nat) (P : G) : halfBy s.ebOps r (g P) = g (halfOf r P) := by
  rw [halfBy, (opsRel_of_image hgrp.image).mulBasic _ rfl, mulBasic_group, halfOf]

theorem mulBasicSigned_spec (k : Int) (P : G) : mulSigned s.ebOps (mulBasic s.ebOps) k (g P) = g (k • P) := by
  have hops := opsRel_of_image hgrp.image
  rw [hops.mulSigned (mul' := mulBasic (groupOps G)) (fun k {_ _} h => hops.mulBasic k h) k rfl,
    mulSigned_group mulBasic_group]

/-- Halving on a point of odd order (46_eb R303, log 9). -/
theorem ebMulBy_halve {P : G} {r : Nat} (hr : r % 2 = 1) (hP : r • P = 0)
    (hbound : r < 2 ^ (s.build.m + 2) ∨ r = s.ctx.eb.n) (hn : 3 ≤ s.ctx.eb.n) (k : Int) :
    ∃ Q, ebMulBy s .halve k (g P) = some (g Q) ∧ Q ∈ AddSubgroup.zmultiples P ∧
      2 ^ (bitlen s.ctx.eb.n - 1) • Q = ((2 ^ (bitlen s.ctx.eb.n - 1) * k) % (s.ctx.eb.n : Int)) • P := by
  have hops := opsRel_of_image hgrp.image
  unfold ebMulBy
  split
  · rename_i h0
    refine ⟨0, congrArg some (g_zero hgrp).symm, AddSubgroup.zero_mem _, ?_⟩
    obtain rfl | hinf := h0
    · rw [mul_zero, Int.zero_emod, smul_zero, zero_smul]
    · rw [(g_eq_inf hgrp).mp hinf, smul_zero, smul_zero]
  · obtain ⟨e, he, hodd, hkill⟩ := oddOrder_spec hgrp hr hP hbound
    obtain ⟨hmem, hval⟩ := mulHalve_spec hkill hodd (show 1 < s.ctx.eb.n by omega) k
    refine ⟨mulHalve (groupOps G) (halfOf e) s.ctx.eb.n k P, ?_, hmem, hval⟩
    rw [if_neg (by simp [isTauAdic])]
    dsimp only
    rw [he, Option.map_some, hops.mulHalve (half' := halfOf e)
      (fun {x Q} (h : x = g Q) => (h ▸ halfBy_spec hgrp e Q : halfBy s.ebOps e x = g (halfOf e Q))) _ k rfl]

/-- Halving is [k]P in the subgroup of order n (46_eb R303). -/
theorem ebMulBy_halve_order {P : G} (hP : s.ctx.eb.n • P = 0) (hodd : s.ctx.eb.n % 2 = 1) (hn : 3 ≤ s.ctx.eb.n)
    (k : Int) : ebMulBy s .halve k (g P) = some (g (k • P)) := by
  obtain ⟨Q, hQ, hmem, hval⟩ := ebMulBy_halve hgrp hodd hP (.inr rfl) hn k
  have hmod : ((2 ^ (bitlen s.ctx.eb.n - 1) * k) % (s.ctx.eb.n : Int)) • P = (2 ^ (bitlen s.ctx.eb.n - 1) * k) • P := by
    conv_rhs => rw [← Int.mul_ediv_add_emod (2 ^ (bitlen s.ctx.eb.n - 1) * k) s.ctx.eb.n, add_smul, mul_smul, smul_comm,
      natCast_zsmul, hP, smul_zero, zero_add]
  have heq : Q = k • P := by
    rw [← sub_eq_zero]
    refine eq_zero_of_two_pow hodd (killed_of_mem hP (AddSubgroup.sub_mem _ hmem
      (AddSubgroup.zsmul_mem _ (AddSubgroup.mem_zmultiples P) k))) (j := bitlen s.ctx.eb.n - 1) ?_
    rw [smul_sub, hval, hmod]
    module
  rw [hQ, heq]

include hg

variable [hf : Fact (Irreducible (toPoly (fbPoly s)))] (hb : s.ctx.eb.b ≠ 0)
include hb

/-- Every method is [k]P where it is defined (46_eb R298 to R306). -/
theorem ebMulBy_spec {v : EbMul} (k : Int) {P : G} (horder : NeedsOrder s v → s.ctx.eb.n • P = 0)
    (hhalve : v = .halve → s.ctx.eb.n % 2 = 1 ∧ 3 ≤ s.ctx.eb.n) : ebMulBy s v k (g P) = some (g (k • P)) := by
  have hops := opsRel_of_image hgrp.image
  have hw : 2 ≤ s.build.ebWidth := (buildOk_of_wf hg.wf).ebWidth.1
  by_cases hv : v = .halve
  · subst hv
    obtain ⟨hodd, hn⟩ := hhalve rfl
    exact ebMulBy_halve_order hgrp (horder trivial) hodd hn k
  unfold ebMulBy
  split
  · rename_i h0
    have hzero : k • P = 0 := by
      obtain rfl | hinf := h0
      · exact zero_smul Int P
      · rw [(g_eq_inf hgrp).mp hinf, smul_zero]
    rw [hzero, g_zero hgrp]
  · dsimp only
    split
    · rename_i htau
      rw [Bool.and_eq_true] at htau
      have hn : s.ctx.eb.n • P = 0 := by
        refine horder ?_
        cases v with
        | lwnaf | rwnaf => exact htau.2
        | basic | lodah | halve => cases htau.1
      have hsub : s.inSubgroup (g P) = true := by
        rw [State.inSubgroup, beq_iff_eq, mulBasic_eq_inf hgrp.image (fun _ => g_eq_inf hgrp), hn]
      rw [if_pos hsub, mulBasicSigned_spec hgrp]
    · cases v with
      | halve => exact absurd rfl hv
      | basic => exact congrArg some (mulBasicSigned_spec hgrp k P)
      | lodah => exact congrArg some (mulLodah_spec hg hgrp hb k P)
      | lwnaf =>
        refine congrArg some ?_
        rw [hops.mulSigned (mul' := mulLwnaf (groupOps G) s.build.ebWidth) (fun k {_ _} h => hops.mulLwnaf _ k h) k rfl,
          mulSigned_group (mulLwnaf_group hw)]
      | rwnaf =>
        refine congrArg some ?_
        rw [hops.mulSigned (mul' := mulRwnaf (groupOps G) s.build.ebWidth) (fun k {_ _} h => hops.mulRwnaf _ k h) k rfl,
          mulSigned_group (mulRwnaf_group hw)]

omit hg hgrp hf hb in
theorem ebSimMul_ne_halve (s : State) : ebSimMul s ≠ .halve := by
  unfold ebSimMul
  split
  · rename_i h
    exact h.1
  · nofun

/-- Every two-scalar method is [k]P + [l]Q where it is defined (46_eb R308 to R313). -/
theorem ebSimBy_spec {v : SimMethod} (k l : Int) {P Q : G}
    (horder : SimNeedsOrder s v → s.ctx.eb.n • P = 0 ∧ s.ctx.eb.n • Q = 0) :
    ebSimBy s v k (g P) l (g Q) = some (g (k • P + l • Q)) := by
  have hops := opsRel_of_image hgrp.image
  have hok := buildOk_of_wf hg.wf
  cases v with
  | basic =>
    have hne (h : ebSimMul s = .halve) : s.ctx.eb.n % 2 = 1 ∧ 3 ≤ s.ctx.eb.n := absurd h (ebSimMul_ne_halve s)
    rw [ebSimBy, ebMulBy_spec hg hgrp hb k (fun h => (horder h).1) hne,
      ebMulBy_spec hg hgrp hb l (fun h => (horder h).2) hne, hgrp.image.add]
  | trick =>
    refine congrArg some ?_
    rw [hops.simSigned (fun k l {_ _ _ _} hP hQ => hops.simTrick _ k l hP hQ) k l rfl rfl,
      simSigned_group fun k P l Q => simTrick_group hok.trickWidth.1 k l P Q]
  | inter =>
    rw [ebSimBy]
    split
    · rename_i hk
      rw [ebMulBy_spec hg hgrp hb k (v := .lwnaf) (fun _ => (horder hk).1) (by simp),
        ebMulBy_spec hg hgrp hb l (v := .lwnaf) (fun _ => (horder hk).2) (by simp), hgrp.image.add]
    · refine congrArg some ?_
      rw [hops.simSigned (fun k l {_ _ _ _} hP hQ => hops.simInter _ k l hP hQ) k l rfl rfl,
        simSigned_group fun k P l Q => simInter_group hok.ebWidth.1 k l P Q]
  | joint =>
    refine congrArg some ?_
    rw [hops.simSigned (fun k l {_ _ _ _} hP hQ => hops.simJoint k l hP hQ) k l rfl rfl,
      simSigned_group fun k P l Q => simJoint_group k l P Q]

end methods

/-! The commands. -/

section commands

variable {s : State} (hg : FbGood s) (ht : EbTrue s) {G : Type} [AddCommGroup G] {g : G → Pt} (hgrp : EbGroup s G g)
include hg ht hgrp

/-- What a command leaves that writes the normalised register of a point of the group. -/
theorem eb_normalises {op : Nat} {own : Bool} {es : List PointReg} {ks : List BigReg} {rd : Reg} {w : State → State}
    {o : Option Pt} {P : G} (hown : own = true) (hes : ∀ e ∈ es, ebCanon s e = true ∧ ebOn s e = true)
    (hks : ∀ k ∈ ks, k ≠ ⟨true, 0⟩) (ho : o = some (g P)) (hw : w s = s.ebResult es rd (o.bind ebNormal) 0) :
    ∃ t, command op (ebChecks s own es ks) w s = .next t ∧ OnlyEb s t rd ∧ some t.eb[rd] = ebNormal (g P) := by
  have hf := fact_field hg ht
  obtain ⟨x, hx, hxok, -⟩ := ebNormal_spec hg (known_of_onPt (onPt_of_group hg hgrp P))
  obtain ⟨t, hexec, honly, hval⟩ := eb_writes hg (ebReady_of_true hg ht) (ebTrue_of_EbTrue ht) (op := op) (rd := rd)
    (k := 0) hown (fun e he => ⟨ebOk_iff.mpr (hes e he).1, (hes e he).2⟩) hks
    (hw.trans (by rw [ho, Option.bind_some, hx])) hxok
  exact ⟨t, hexec, honly, by rw [hval, hx]⟩

end commands

theorem exec_ebMul {i : Instr} {v : EbMul} {s : State} {rd ra rb : Reg}
    (hi : i = ebMulOf v rd ra rb ∧ v ∈ s.build.ebMulSet ∨ i = .ebMul rd ra rb ∧ v = s.build.ebMul) :
    ∃ (own : Bool) (w : State → State), own = true ∧
      exec i s = command 0x90 (ebChecks s (own && ebMulAllowed s v) [s.eb[ra]] [s.n[rb]]) w s ∧
      w s = s.ebResult [s.eb[ra]] rd ((ebMulBy s v s.n[rb].val (s.ebPt s.eb[ra])).bind ebNormal) 0 := by
  obtain ⟨rfl, hv⟩ | ⟨rfl, rfl⟩ := hi
  · refine ⟨decide (v ∈ s.build.ebMulSet), fun s => s.ebResult [s.eb[ra]] rd (s.ebMulReg v s.n[rb].val s.eb[ra]) 0,
      decide_eq_true hv, ?_, rfl⟩
    cases v <;> rfl
  · exact ⟨true, fun s => s.ebResult [s.eb[ra]] rd (s.ebMulReg s.build.ebMul s.n[rb].val s.eb[ra]) 0, rfl, rfl, rfl⟩

theorem exec_ebSim {i : Instr} {v : SimMethod} {s : State} {rd ra rb rc re : Reg}
    (hi : i = ebSimOf v rd ra rb rc re ∧ v ∈ s.build.ebSimSet ∨ i = .ebSim rd ra rb rc re ∧ v = s.build.ebSim) :
    ∃ (own : Bool) (w : State → State), own = true ∧
      exec i s = command 0x91 (ebChecks s own [s.eb[ra], s.eb[rc]] [s.n[rb], s.n[re]]) w s ∧
      w s = s.ebResult [s.eb[ra], s.eb[rc]] rd
        ((ebSimBy s v s.n[rb].val (s.ebPt s.eb[ra]) s.n[re].val (s.ebPt s.eb[rc])).bind ebNormal) 0 := by
  obtain ⟨rfl, hv⟩ | ⟨rfl, rfl⟩ := hi
  · refine ⟨decide (v ∈ s.build.ebSimSet), fun s => s.ebResult [s.eb[ra], s.eb[rc]] rd
      (s.ebSimReg v s.n[rb].val s.eb[ra] s.n[re].val s.eb[rc]) 0, decide_eq_true hv, ?_, rfl⟩
    cases v <;> rfl
  · exact ⟨true, fun s => s.ebResult [s.eb[ra], s.eb[rc]] rd
      (s.ebSimReg s.build.ebSim s.n[rb].val s.eb[ra] s.n[re].val s.eb[rc]) 0, rfl, rfl, rfl⟩

/-- What a multiplication leaves, by whatever method. -/
theorem ebMul_leaves {s : State} (hg : FbGood s) (ht : EbTrue s) {G : Type} [AddCommGroup G] {g : G → Pt}
    (hgrp : EbGroup s G g) {i : Instr} {v : EbMul} {rd ra rb : Reg} {P Q : G} (hcanon : ebCanon s s.eb[ra] = true)
    (hon : ebOn s s.eb[ra] = true) (hP : s.ebPt s.eb[ra] = g P) (hk : s.n[rb] ≠ ⟨true, 0⟩)
    (hi : i = ebMulOf v rd ra rb ∧ v ∈ s.build.ebMulSet ∨ i = .ebMul rd ra rb ∧ v = s.build.ebMul)
    (hallowed : MulOk s v) (hQ : ebMulBy s v s.n[rb].val (g P) = some (g Q)) :
    ∃ t, exec i s = .next t ∧ OnlyEb s t rd ∧ some t.eb[rd] = ebNormal (g Q) := by
  obtain ⟨own, w, hown, hexec, hw⟩ := exec_ebMul hi
  obtain ⟨t, hrun, honly, hval⟩ := eb_normalises hg ht hgrp (op := 0x90) (own := own && ebMulAllowed s v)
    (es := [s.eb[ra]]) (ks := [s.n[rb]]) (by rw [hown, (ebMulAllowed_iff s v).mpr hallowed]; rfl)
    (by simpa using ⟨hcanon, hon⟩) (by simpa using hk) (hP ▸ hQ) hw
  exact ⟨t, hexec.trans hrun, honly, hval⟩

/-- Settles O55. -/
theorem ebHalving : Obligations.EbHalving := by
  unfold Obligations.EbHalving
  refine ⟨?_, ?_, ?_⟩
  · intro s A _ g rd ra P r hg ht hgrp hcanon hon hP hr hbound hkill hm
    obtain ⟨e, he, hodd, hke⟩ := oddOrder_spec hgrp hr hkill (.inl hbound)
    have hmem := AddSubgroup.mem_zmultiples P
    obtain ⟨t, hexec, honly, hval⟩ := eb_normalises hg ht hgrp (op := 0x85) (own := s.build.m % 2 == 1)
      (es := [s.eb[ra]]) (ks := []) (rd := rd) (P := halfOf e P)
      (w := fun s => s.ebResult [s.eb[ra]] rd (s.ebHalfReg s.eb[ra]) 0)
      (by rw [hm]; rfl) (by simpa using ⟨hcanon, hon⟩) (by simp)
      (o := (s.oddOrder (s.ebPt s.eb[ra])).map fun r => halfBy s.ebOps r (s.ebPt s.eb[ra]))
      (by rw [hP, he, Option.map_some, halfBy_spec hgrp]) rfl
    exact ⟨t, halfOf e P, hexec, honly, hval, (two_nsmul _).symm.trans (double_half hke hodd hmem), _, rfl⟩
  · intro s A _ g rd ra rb i P r hg ht hgrp hcanon hon hP hk hr hbound hkill hm hn hn3 hi
    obtain ⟨Q, hQ, hmem, hval⟩ := ebMulBy_halve hgrp hr hkill (.inl hbound) hn3 s.n[rb].val
    obtain ⟨t, hexec, honly, hres⟩ := ebMul_leaves hg ht hgrp (v := .halve) hcanon hon hP hk
      (hi.imp_right fun h => ⟨h.1, h.2.symm⟩) ⟨hm, hn, hn3⟩ hQ
    exact ⟨t, Q, hexec, honly, hres, exists_nsmul_of_mem hkill hr hmem, hval⟩
  · intro s rd ra hm
    dsimp only [exec]
    refine command_faults ?_
    simp only [ebChecks, firstFault, needConfig, hm]
    cases ebReady s <;> rfl

/-- Settles O56. -/
theorem ebLadder : Obligations.EbLadder := by
  unfold Obligations.EbLadder
  intro s A _ g rd ra rb i P hg ht hgrp hcanon hon hP hk hi
  have hf := fact_field hg ht
  exact ebMul_leaves hg ht hgrp (v := .lodah) hcanon hon hP hk (hi.imp_right fun h => ⟨h.1, h.2.symm⟩) trivial
    (ebMulBy_spec hg hgrp ht.b _ False.elim nofun)

/-- Settles O57. -/
theorem ebScalarMultiplication : Obligations.EbScalarMultiplication := by
  unfold Obligations.EbScalarMultiplication
  intro s A _ g rd ra rb v i P hg ht hgrp hcanon hon hP hk hi hv hrwnaf hhalve horder
  have hf := fact_field hg ht
  have hallowed : MulOk s v := by
    cases v with
    | rwnaf => exact hrwnaf rfl
    | halve => exact hhalve rfl
    | basic | lwnaf | lodah => trivial
  have hneeds : NeedsOrder s v → s.ctx.eb.n • P = 0 := by
    intro h
    refine horder ?_
    cases v with
    | halve => exact .inl rfl
    | lwnaf => exact .inr ⟨h, .inl rfl⟩
    | rwnaf => exact .inr ⟨h, .inr rfl⟩
    | basic | lodah => exact h.elim
  exact ebMul_leaves hg ht hgrp hcanon hon hP hk hi hallowed
    (ebMulBy_spec hg hgrp ht.b _ hneeds fun h => (hhalve h).2)

/-- Settles O58. -/
theorem ebTwoScalarMultiplication : Obligations.EbTwoScalarMultiplication := by
  unfold Obligations.EbTwoScalarMultiplication
  intro s A _ g rd ra rb rc re v i P Q hg ht hgrp hca hona hP hcc honc hQ hk hl horder hi
  have hf := fact_field hg ht
  obtain ⟨own, w, hown, hexec, hw⟩ := exec_ebSim hi
  obtain ⟨t, hrun, honly, hval⟩ := eb_normalises hg ht hgrp (op := 0x91) (own := own) (es := [s.eb[ra], s.eb[rc]])
    (ks := [s.n[rb], s.n[re]]) hown (by simpa using ⟨⟨hca, hona⟩, hcc, honc⟩) (by simpa using ⟨hk, hl⟩)
    (hP ▸ hQ ▸ ebSimBy_spec hg hgrp ht.b s.n[rb].val s.n[re].val horder) hw
  exact ⟨t, hexec.trans hrun, honly, hval⟩

end Sys2Proof.Proofs.BinaryMultiplication
end

section
/-! PROOFS. The τ-adic recoding (42_rec R148, R149): where φ is an endomorphism the four conditions need a test on G
only, and the search that REC.TNAF ends with finds every sequence of digits. -/

set_option Elab.async false

namespace Sys2Proof.Proofs.TauRecoding

open Sys2Proof.Machine Sys2Proof.Laws Sys2Proof.Proofs.Recoding Sys2Proof.Proofs.Faults Sys2Proof.Proofs.Frames
  Sys2Proof.Proofs.Loops  Sys2Proof.Proofs.BinaryFieldCommands Sys2Proof.Proofs.BinaryCurve Sys2Proof.Proofs.Ladder

/-! The search. -/

section search

variable {ok : List Int → Bool} {alphabet : List Int}

theorem findDigits_ok (n : Nat) : ∀ {ds r : List Int}, findDigits ok alphabet n ds = some r → ok r = true := by
  induction n with
  | zero =>
    intro ds r h
    rw [findDigits] at h
    split at h
    · rename_i hok
      exact Option.some.inj h ▸ hok
    · cases h
  | succ n ih =>
    intro ds r h
    rw [findDigits] at h
    split at h
    · rename_i hok
      exact Option.some.inj h ▸ hok
    · obtain ⟨d, -, hd⟩ := List.exists_of_findSome?_eq_some h
      exact ih hd

/-- The search misses no sequence of its length. -/
theorem findDigits_complete (n : Nat) : ∀ {ds es : List Int}, (∀ e ∈ es, e ∈ alphabet) → es.length ≤ n →
    ok (ds ++ es) = true → ∃ r, findDigits ok alphabet n ds = some r := by
  induction n with
  | zero =>
    intro ds es _ hlen hok
    rw [List.length_eq_zero_iff.mp (Nat.le_zero.mp hlen), List.append_nil] at hok
    exact ⟨ds, if_pos hok⟩
  | succ n ih =>
    intro ds es hes hlen hok
    rw [findDigits]
    split
    · exact ⟨ds, rfl⟩
    · rename_i hds
      cases es with
      | nil => exact absurd (List.append_nil ds ▸ hok) hds
      | cons e es =>
        rw [List.forall_mem_cons] at hes
        rw [List.append_cons] at hok
        obtain ⟨r, hr⟩ := ih hes.2 (Nat.le_of_succ_le_succ hlen) hok
        exact Option.isSome_iff_exists.mp (List.findSome?_isSome_iff.mpr ⟨e, hes.1, by rw [hr]; rfl⟩)

end search

/-! The digits. -/

theorem windowDigit_iff {w : Nat} {d : Int} :
    windowDigit w d = true ↔ d = 0 ∨ (d % 2 = 1 ∧ d.natAbs ≤ 2 ^ (w - 1) - 1) := by
  simp only [windowDigit, Bool.or_eq_true, Bool.and_eq_true, beq_iff_eq, decide_eq_true_iff]

/-- The search tries every digit of the width. -/
theorem mem_tnafDigits {w : Nat} (hw : 2 ≤ w) {d : Int} (h : windowDigit w d = true) : d ∈ tnafDigits w := by
  rw [windowDigit_iff] at h
  obtain rfl | ⟨hodd, hle⟩ := h
  · exact List.mem_cons_self
  · have hpow : 2 ^ (w - 1) = 2 * 2 ^ (w - 2) := by
      rw [← pow_succ']
      congr 1
      omega
    have hj : (d.natAbs - 1) / 2 < 2 ^ (w - 2) := by
      have := Nat.two_pow_pos (w - 2)
      omega
    refine List.mem_cons_of_mem _ (List.mem_flatMap.mpr ⟨((d.natAbs - 1) / 2 : Nat), ?_, ?_⟩)
    · exact List.mem_flatMap.mpr ⟨_, List.mem_range.mpr hj, List.mem_singleton_self _⟩
    rw [List.mem_cons, List.mem_singleton]
    omega

theorem nonAdjacent_iff {w : Nat} : ∀ ds : List Int, nonAdjacent w ds = true ↔
    ∀ i j, i < j → j < i + w → ds.getD i 0 = 0 ∨ ds.getD j 0 = 0 := by
  intro ds
  induction ds with
  | nil => exact iff_of_true rfl fun i j _ _ => .inl rfl
  | cons d ds ih =>
    have htake : (ds.take (w - 1)).all (fun e => e == 0) = true ↔ ∀ j, j < w - 1 → ds.getD j 0 = 0 := by
      simp only [List.all_eq_true, beq_iff_eq, List.getD_eq_getElem?_getD]
      constructor
      · intro h j hj
        by_cases hlen : j < ds.length
        · rw [List.getElem?_eq_getElem hlen]
          exact h _ (List.mem_take_iff_getElem.mpr ⟨j, by omega, rfl⟩)
        · rw [List.getElem?_eq_none (by omega)]
          rfl
      · intro h e he
        obtain ⟨j, hj, rfl⟩ := List.mem_take_iff_getElem.mp he
        have := h j (by omega)
        rwa [List.getElem?_eq_getElem (by omega)] at this
    rw [nonAdjacent, Bool.and_eq_true, Bool.or_eq_true, beq_iff_eq, htake, ih]
    constructor
    · rintro ⟨h0, hrest⟩ i j hij hj
      cases j with
      | zero => omega
      | succ j =>
        cases i with
        | zero => exact h0.imp_right fun h => h j (by omega)
        | succ i => exact hrest i j (by omega) (by omega)
    · intro h
      refine ⟨?_, fun i j hij hj => h (i + 1) (j + 1) (by omega) (by omega)⟩
      by_cases h0 : d = 0
      · exact .inl h0
      · exact .inr fun j hj => (h 0 (j + 1) (by omega) (by omega)).resolve_left h0

/-! The fourth condition. -/

section group

variable {A : Type} [AddCommGroup A]

/-- Σ d[i]·φⁱ is linear where φ is an endomorphism. -/
theorem tauSum_nsmul (F : A →+ A) (ds : List Int) (j : Nat) : ∀ P : A,
    tauSum (groupOps A) F ds (j • P) = j • tauSum (groupOps A) F ds P := by
  induction ds with
  | nil => exact fun P => (nsmul_zero j).symm
  | cons d ds ih =>
    intro P
    rw [tauSum, tauSum, map_nsmul, ih, mulSigned_group mulBasic_group, mulSigned_group mulBasic_group]
    show d • j • P + _ = j • (d • P + _)
    rw [smul_add, smul_comm]

variable {s : State} {g : A → Pt} (hgrp : EbGroup s A g) {F : A →+ A} (hF : ∀ P, s.frob (g P) = g (F P)) {G : A}
  (hG : g G = .aff s.ctx.eb.gx s.ctx.eb.gy)
include hgrp hF

theorem tauSum_image (ds : List Int) (P : A) :
    tauSum s.ebOps s.frob ds (g P) = g (tauSum (groupOps A) F ds P) :=
  (opsRel_of_image hgrp.image).tauSum (phi' := F) (fun {x Q} (h : x = g Q) => by rw [h, hF]) ds rfl

include hG

/-- What holds for G holds for every [j]G (42_rec R149). -/
theorem tauSum_iff (hn : 2 ≤ s.ctx.eb.n) (ds : List Int) (k : Nat) :
    tauSum s.ebOps s.frob ds (.aff s.ctx.eb.gx s.ctx.eb.gy) = mulBasic s.ebOps k (.aff s.ctx.eb.gx s.ctx.eb.gy) ↔
      ∀ j, j < s.ctx.eb.n →
        tauSum s.ebOps s.frob ds (mulBasic s.ebOps j (.aff s.ctx.eb.gx s.ctx.eb.gy)) =
          mulBasic s.ebOps k (mulBasic s.ebOps j (.aff s.ctx.eb.gx s.ctx.eb.gy)) := by
  have hops := opsRel_of_image hgrp.image
  have hmul (j : Nat) (P : A) : mulBasic s.ebOps j (g P) = g (j • P) := by
    rw [hops.mulBasic j rfl, mulBasic_group]
  rw [← hG]
  simp only [hmul, tauSum_image hgrp hF, hgrp.inj.eq_iff, tauSum_nsmul]
  constructor
  · intro h j _
    rw [h, smul_comm]
  · intro h
    have h1 := h 1 (by omega)
    rwa [one_smul, one_smul] at h1

/-- The test of the model is the four conditions of the rule. -/
theorem tnafValid_iff (hn : 2 ≤ s.ctx.eb.n) (w k : Nat) (ds : List Int) :
    tnafValid s w k ds = true ↔ Qualifies s w k ds := by
  simp only [tnafValid, Qualifies, Bool.and_eq_true, decide_eq_true_iff, List.all_eq_true, beq_iff_eq,
    windowDigit_iff, nonAdjacent_iff, and_assoc, tauSum_iff hgrp hF hG hn]

/-- The recoding meets the four conditions where some sequence does, and is empty for 0. -/
theorem tnaf_spec (ht : ebTrue s = true) (hn : 2 ≤ s.ctx.eb.n) {w k : Nat} (hw : 2 ≤ w)
    (hex : ∃ ds, Qualifies s w k ds) : Qualifies s w k (tnaf s w k) ∧ (k = 0 → tnaf s w k = []) := by
  have hiff := tnafValid_iff hgrp hF hG hn w k
  simp only [← hiff] at hex ⊢
  unfold tnaf
  dsimp only
  rw [ht, Bool.not_true, if_neg Bool.false_ne_true]
  by_cases hk : k = 0
  · rw [if_pos hk]
    refine ⟨?_, fun _ => rfl⟩
    simp [tnafValid, nonAdjacent, tauSum, mulBasic, hk]
  · rw [if_neg hk]
    refine ⟨?_, fun h => absurd h hk⟩
    split
    · assumption
    · split
      · rename_i ds hds
        exact List.find?_some hds
      · obtain ⟨ds, hds⟩ := hex
        obtain ⟨hlen, hdig, -⟩ := (hiff ds).mp hds
        obtain ⟨r, hr⟩ := findDigits_complete (ok := tnafValid s w k) (alphabet := tnafDigits w)
          (s.build.m + s.build.tnafExtra) (ds := []) (fun d hd => mem_tnafDigits hw (windowDigit_iff.mpr (hdig d hd)))
          hlen hds
        rw [hr, Option.getD_some]
        exact findDigits_ok _ hr

end group

/-- Settles O32. -/
theorem tnafQualifies : Obligations.TnafQualifies := by
  unfold Obligations.TnafQualifies
  intro s A _ g F G rd ra w hg ht hgrp hF hG hn hkbltz hsign hw2 hw8 hex
  obtain ⟨hqual, hzero⟩ := tnaf_spec hgrp hF hG (ebTrue_of_EbTrue ht) hn hw2 hex
  refine ⟨finish ((s.putRc rd (tnaf s w.val s.n[ra].mag)).drawn (1 + s.build.m + s.build.tnafExtra)), _, ?_, ?_,
    OnlyRc.drawn _ (onlyRc_putRc s rd _), hqual, hzero⟩
  · dsimp only [exec]
    refine command_completes ?_
    have hpass : firstFault (scalarChecks [s.n[ra]]) = none := scalarChecks_pass (by simpa using hsign)
    have hlegal : signedWidth w = true := decide_eq_true ⟨hw2, hw8⟩
    have hready := fbReady_of_good hg
    simp only [List.cons_append, List.nil_append, firstFault, needInput, needConfig, hlegal, hready, hkbltz, hpass,
      if_true]
  · rw [finish_rc, drawn_rc, putRc_same]
    exact holds_ofDigits (hqual.1.trans (buildOk_of_wf hg.wf).tnaf)

end Sys2Proof.Proofs.TauRecoding
end
